-- ==== Sys2Proof/Word.lean ====
section
/-! DEFINITION. The widths of the block's data (00_scope.md rules R3 and R6): a byte, a bus address, a cell code, and
the opaque session handle. Bit 0 is the least significant bit (R6). -/

namespace Sys2Proof

/-- A byte, 0..255 (00_scope.md section 6). -/
abbrev Byte := BitVec 8

/-- A bus address, `AW` = 16 bits (R3, decision D1). -/
abbrev Addr := BitVec 16

/-- A cell code, 0..63 (10_state.md R20). -/
abbrev Code := BitVec 6

/-- A session handle, opaque to the block, which only copies it onto its replies (R5); a plain number here
(DESIGN CHOICE, safe, log entry 18). -/
abbrev Session := Nat

/-- A MemoryImage index, 0..20479 (10_state.md R11, `RAM_SIZE` = 0x5000). -/
abbrev RamIndex := Fin 0x5000

end Sys2Proof
end

