-- ==== Sys2Proof/Config.lean ====
section
/-! DEFINITION. What one build of the block fixes: the OPEN parameters of 00_scope.md rule R3 with the constraints of
rule R4, the option `BOOT_RESET`, and the free bytes (`any8`) that the environment draws. -/

namespace Sys2Proof

/-- `DSP_READBACK` (R3, R123): what a read of I/O sub-offset 2 returns. -/
inductive DspReadback where
  | any     -- `ANY`: a draw, the spec's default
  | stored  -- `STORED`: the register `DSP`
  | zero    -- `ZERO`: 0x00
deriving DecidableEq, Repr

/-- The OPEN parameters of rule R3, the last four of which no rule reads (93_implementation_defined.md U10). The six
constraints of rule R4 are carried as proofs, so that parameter values which break them cannot be built
(93_implementation_defined.md U1): every claim about a state has R4 as a premise. No alignment is required (decision
D5). -/
structure Params where
  /-- `ALIAS_BASE`, the first bus address of the 4 KiB alias window. -/
  aliasBase : Nat
  /-- `ALIAS_TARGET`, the MemoryImage index that `ALIAS_BASE` maps to. -/
  aliasTarget : Nat
  /-- `IO_BASE`, the first bus address of the 16-byte I/O window. -/
  ioBase : Nat
  /-- `ROM[0..255]`, the monitor image (10_state.md R12). -/
  rom : Vector Byte 256
  /-- `DSP_READBACK`. -/
  dspReadback : DspReadback
  /-- `CURSOR_GLYPH`, the code shown at a lit cursor (42_terminal.md R146). -/
  cursorGlyph : Code
  /-- `INSTR_PER_TICK`, how many instructions the CPU engine executes in a tick (45_scheduler.md R210). -/
  instrPerTick : Nat
  /-- `TICK_PERIOD`, between two ticks, in a unit no rule names (70_reset_and_hazards.md R270). -/
  tickPeriod : Nat
  /-- `BLINK_PERIOD`, between two blink events, in a unit no rule names (R270). -/
  blinkPeriod : Nat
  /-- `MAX_PAYLOAD`, the largest UDP payload that the network delivers (91_not_in_source.md N15). -/
  maxPayload : Nat
  ramBelowAlias : 0x5000 ≤ aliasBase
  aliasBelowRom : aliasBase + 0x1000 ≤ 0xFF00
  ramBelowIo : 0x5000 ≤ ioBase
  ioBelowRom : ioBase + 16 ≤ 0xFF00
  windowsApart : aliasBase + 0x1000 ≤ ioBase ∨ ioBase + 16 ≤ aliasBase
  targetInRam : aliasTarget + 0x1000 ≤ 0x5000
deriving DecidableEq, Repr

/-- `BOOT_RESET` (R3, decision D21): power-on runs the reset operation. -/
def Config.bootReset : Bool := true

/-- `any8` (00_scope.md section 6): the byte of the n-th draw. It has no body, so nothing can be proved about its value
(free value; DESIGN CHOICE, safe, log entry 4). -/
opaque Config.draw : Nat → Byte

end Sys2Proof
end

