-- ==== Sys2Proof/Machine/Flags.lean ====
section
/-! DEFINITION. The one-bit conditions and the byte classes: the values of the data-ready flag (10_state.md R14, R19), the
printable and new-line tests of `PUTC` (42_terminal.md R140), and the Telnet filter (44_telnet.md R191). -/

namespace Sys2Proof

/-- `TOP_BIT` (R3, R6): bit 7 of a byte. -/
def topBit : Byte := 0x80

/-- `KEY_PENDING` (R3, R14). -/
def keyPending : Byte := 0xFF

/-- `KEY_IDLE` (R3, R14). -/
def keyIdle : Byte := 0x00

/-- `SENTINEL` (R3, 40_bus.md R108). -/
def sentinel : Byte := 0xFF

/-- Step 2 of `PUTC`: carriage-return or line-feed. -/
def isNewLine (b : Byte) : Bool := b == 0x0D || b == 0x0A

/-- Step 3 of `PUTC`: the printable range 0x20..0x7E. -/
def isPrintable (b : Byte) : Bool := decide (0x20 ≤ b.toNat) && decide (b.toNat ≤ 0x7E)

/-- `b & 0x3F`, the cell code of a printable byte (R140 step 3). -/
def cellCode (b : Byte) : Code := (b &&& 0x3F).setWidth 6

/-- A lower-case ASCII letter, 0x61..0x7A (30_encoding.md R77). -/
def isLower (b : Byte) : Bool := decide (0x61 ≤ b.toNat) && decide (b.toNat ≤ 0x7A)

/-- `CASE_BIT` (R3). -/
def caseBit : Byte := 0x20

/-- `ETX`, `LF`, `DEL` (R3): the three single-byte Telnet classes. -/
def etx : Byte := 0x03
def lineFeed : Byte := 0x0A
def delete : Byte := 0x7F

/-- What line-feed and DEL become (R191): carriage-return and underscore. -/
def carriageReturn : Byte := 0x0D
def underscore : Byte := 0x5F

/-- The Telnet filter `f` (R191). -/
def telnetFilter (b : Byte) : Byte :=
  if isLower b then b ^^^ caseBit
  else if b = lineFeed then carriageReturn
  else if b = delete then underscore
  else b

end Sys2Proof
end

