-- ==== Sys2Proof/Machine/Operands.lean ====
section
/-! DEFINITION. The operand forms: the address decoder with its derived fields (40_bus.md R100, 30_encoding.md R72), the
bank alias (20_memory.md R46, 43_tftp.md R171), the datagram fields (R73) and the default parameters (R3). -/

namespace Sys2Proof

/-- The spec's default parameter values (R3, brackets): the imitated machine's, from general knowledge and not from the
source (PRESUMED, unsafe, log entry 2); the ROM image is the test image of 95_test_vectors.md (DESIGN CHOICE, unsafe,
log entry 3); `DSP_READBACK` is `ANY`; the four parameters that no rule reads have no default in the spec (DESIGN CHOICE,
safe, log entry 25). -/
def Params.default : Params where
  aliasBase := 0xE000
  aliasTarget := 0x4000
  ioBase := 0xD010
  rom := ⟨⟨(List.range 256).map fun i => BitVec.ofNat 8 (0xA0 + i)⟩, by simp⟩
  dspReadback := .any
  cursorGlyph := 0x00
  instrPerTick := 1
  tickPeriod := 1
  blinkPeriod := 1
  maxPayload := 65535
  ramBelowAlias := by decide
  aliasBelowRom := by decide
  ramBelowIo := by decide
  ioBelowRom := by decide
  windowsApart := by decide
  targetInRam := by decide

/-- The five regions of the bus address space, each with the field R72 derives from the address. -/
inductive Region where
  | ram (i : RamIndex)          -- index = addr
  | aliasWindow (off : Fin 0x1000)  -- addr - ALIAS_BASE
  | io (sub : Fin 16)           -- sub-offset = addr - IO_BASE
  | rom (i : Fin 256)           -- index = addr - ROM_BASE
  | unmapped                    -- the region NONE
deriving DecidableEq, Repr

/-- `region(a)` (R100): the tests in the source's order. -/
def region (p : Params) (a : Addr) : Region :=
  if h : a.toNat < 0x5000 then .ram ⟨a.toNat, h⟩
  else if h : p.aliasBase ≤ a.toNat ∧ a.toNat < p.aliasBase + 0x1000 then
    .aliasWindow ⟨a.toNat - p.aliasBase, by omega⟩
  else if h : p.ioBase ≤ a.toNat ∧ a.toNat < p.ioBase + 16 then .io ⟨a.toNat - p.ioBase, by omega⟩
  else if h : 0xFF00 ≤ a.toNat then .rom ⟨a.toNat - 0xFF00, by omega⟩
  else .unmapped

/-- The MemoryImage index behind an offset of the alias window: `alias(a) = a - ALIAS_BASE + ALIAS_TARGET` (R46). -/
def aliasIndex (p : Params) (off : Fin 0x1000) : RamIndex :=
  ⟨p.aliasTarget + off.val, by have := p.targetInRam; omega⟩

/-- The translation the write-request applies to the load pointer (R171): a pointer in the alias window becomes the
index behind it, any other is kept (decision D20). -/
def loadTarget (p : Params) (t : BitVec 16) : BitVec 16 :=
  if p.aliasBase ≤ t.toNat ∧ t.toNat < p.aliasBase + 0x1000 then
    BitVec.ofNat 16 (t.toNat - p.aliasBase + p.aliasTarget)
  else t

/-- A big-endian 16-bit field of a datagram (R73): `hi * 256 + lo`. -/
def bigEndian (hi lo : Byte) : BitVec 16 := BitVec.ofNat 16 (hi.toNat * 256 + lo.toNat)

/-- A little-endian 16-bit value of two RAM bytes (R42): `lo | (hi << 8)`, equal to `lo + 256 * hi` (30_encoding.md R78 (8)). -/
def littleEndian (lo hi : Byte) : BitVec 16 := BitVec.ofNat 16 (lo.toNat + 256 * hi.toNat)

/-- `OP_WRQ` (R3). -/
def opWrq : BitVec 16 := 2

/-- `OP_DATA` (R3). -/
def opData : BitVec 16 := 3

/-- The acknowledgment of block `hi`, `lo` (30_encoding.md R79): opcode 4, then the two bytes verbatim. -/
def ackBytes (hi lo : Byte) : List Byte := [0x00, 0x04, hi, lo]

/-- `GREETING` (44_telnet.md R190): "Welcome to Espple!", line-feed, IAC DO LINEMODE, IAC WILL ECHO. -/
def greeting : List Byte :=
  [0x57, 0x65, 0x6C, 0x63, 0x6F, 0x6D, 0x65, 0x20, 0x74, 0x6F, 0x20,
   0x45, 0x73, 0x70, 0x70, 0x6C, 0x65, 0x21, 0x0A,
   0xFF, 0xFD, 0x22, 0xFF, 0xFB, 0x01]

end Sys2Proof
end

