-- ==== Sys2Proof/Syntax.lean ====
section
/-! DEFINITION. The stimuli the agents present (30_encoding.md R70 to R75), the plan of the external CPU engine (45_scheduler.md
R210), and the operations of the block that stimuli and calls select (R81, the 33 mnemonics of spec/opcode_table.json). -/

namespace Sys2Proof

/-- Format `BUS` (R71): a read or a write by the CPU. The data of a read is returned by the block and is no field of
the stimulus. -/
inductive BusTxn where
  | rd (a : Addr)
  | wr (a : Addr) (v : Byte)
deriving DecidableEq, Repr

/-- What the CPU engine does next (45_scheduler.md R210): it chooses each transaction after seeing the byte the one before
returned. Every strategy of finite length is such a tree (log entry 8). -/
inductive CpuPlan where
  | halt                                  -- no further transaction, in this tick or a later one
  | endTick (next : CpuPlan)              -- the batch of this tick ends here
  | txn (t : BusTxn) (next : CpuPlan)     -- one transaction
  | ifByte (b : Byte) (yes no : CpuPlan)  -- whether the latest `RD` returned `b`
deriving DecidableEq, Repr

/-- Format `EVT` (R70): the data-less events. -/
inductive Evt where
  | blink
  | tick
  | poweron
deriving DecidableEq, Repr

/-- Format `CALL` (R75): the internal operations with their arguments. Only other operations of the block make calls; no
agent presents one. -/
inductive Call where
  | deposit (b : Byte)
  | putc (b : Byte)
  | setcur (x y : Byte)
  | cls
  | reset
deriving DecidableEq, Repr

/-- One stimulus, as its agent presents it: the five stimulus formats of R70. -/
inductive Stimulus where
  | bus (t : BusTxn)
  | udp (s : Session) (p : List Byte)   -- R73: the whole datagram payload
  | tcpb (s : Session) (b : Byte)       -- R74: one received byte
  | tcpc (s : Session)                  -- R74: connection established
  | evt (e : Evt)
deriving DecidableEq, Repr

/-- How an operation is presented (R70): by a stimulus of an agent, or by a call of another operation (R75). -/
inductive Presentation where
  | stimulus (st : Stimulus)
  | call (c : Call)
deriving DecidableEq, Repr

/-- The operations of the block (R81), one constructor per mnemonic of the table. Bus operands are the fields R72
derives from the address. -/
inductive Instr where
  | rdRam (i : RamIndex)                       -- RD.RAM
  | wrRam (i : RamIndex) (v : Byte)            -- WR.RAM
  | rdAlias (off : Fin 0x1000)                 -- RD.ALIAS
  | wrAlias (off : Fin 0x1000) (v : Byte)      -- WR.ALIAS
  | rdKbd                                      -- RD.KBD
  | rdKbdcr                                    -- RD.KBDCR
  | rdDsp                                      -- RD.DSP
  | rdDspcr                                    -- RD.DSPCR
  | rdIox (sub : Fin 16)                       -- RD.IOX, sub 4..15
  | wrDsp (v : Byte)                           -- WR.DSP
  | wrIox (sub : Fin 16) (v : Byte)            -- WR.IOX, sub not 2
  | rdRom (i : Fin 256)                        -- RD.ROM
  | wrRom (i : Fin 256) (v : Byte)             -- WR.ROM
  | rdNone (a : Addr)                          -- RD.NONE, a in no region
  | wrNone (a : Addr) (v : Byte)               -- WR.NONE, a in no region
  | deposit (b : Byte)                         -- DEPOSIT
  | putc (b : Byte)                            -- PUTC
  | blink                                      -- BLINK
  | setcur (x y : Byte)                        -- SETCUR
  | cls                                        -- CLS
  | tftpShort (s : Session) (p : List Byte)    -- TFTP.SHORT, fewer than 4 bytes
  | tftpWrq (s : Session) (body : List Byte)   -- TFTP.WRQ, the bytes after the opcode, at least 2
  | tftpData (s : Session) (hi lo : Byte) (payload : List Byte)   -- TFTP.DATA, block number and payload
  | tftpOther (s : Session) (op : BitVec 16) (body : List Byte)   -- TFTP.OTHER, the bytes after the opcode, at least 2
  | connect (s : Session)                      -- CONNECT
  | tbyteEtx (s : Session)                     -- TBYTE.ETX
  | tbyteLower (s : Session) (b : Byte)        -- TBYTE.LOWER, b in 0x61..0x7A
  | tbyteLf (s : Session)                      -- TBYTE.LF
  | tbyteDel (s : Session)                     -- TBYTE.DEL
  | tbytePass (s : Session) (b : Byte)         -- TBYTE.PASS, any other b
  | tick                                       -- TICK
  | reset                                      -- RESET
  | poweron                                    -- POWERON
deriving DecidableEq, Repr

/-- The 33 mnemonics of spec/opcode_table.json (R81), in the table's order and with the names of the constructors of
`Instr`. -/
inductive Mnemonic where
  | rdRam | wrRam | rdAlias | wrAlias | rdKbd | rdKbdcr | rdDsp | rdDspcr
  | rdIox | wrDsp | wrIox | rdRom | wrRom | rdNone | wrNone | deposit
  | putc | blink | setcur | cls | tftpShort | tftpWrq | tftpData | tftpOther
  | connect | tbyteEtx | tbyteLower | tbyteLf | tbyteDel | tbytePass | tick | reset
  | poweron
deriving DecidableEq, Repr

/-- The formats of R70. -/
inductive Format where
  | bus | udp | tcpb | tcpc | evt | call
deriving DecidableEq, Repr

end Sys2Proof
end

