-- ==== Sys2Proof/WellFormed.lean ====
section
/-! DEFINITION. Which operands an operation can have (30_encoding.md R72, R76, R77): the checks the decoder's classes give
beyond the operand types. -/

namespace Sys2Proof

/-- The operands are ones that decoding under the parameters `p` can give. -/
def Instr.wellFormed (p : Params) : Instr → Bool
  | .rdIox sub => decide (4 ≤ sub.val)
  | .wrIox sub _ => decide (sub.val ≠ 2)
  | .rdNone a => decide (region p a = .unmapped)
  | .wrNone a _ => decide (region p a = .unmapped)
  | .tftpShort _ q => decide (q.length < 4)
  | .tftpWrq _ body => decide (2 ≤ body.length)
  | .tftpOther _ op body => decide (op ≠ opWrq) && decide (op ≠ opData) && decide (2 ≤ body.length)
  | .tbyteLower _ b => isLower b
  | .tbytePass _ b => decide (b ≠ etx) && !isLower b && decide (b ≠ lineFeed) && decide (b ≠ delete)
  | .rdRam _ | .wrRam _ _ | .rdAlias _ | .wrAlias _ _ | .rdKbd | .rdKbdcr | .rdDsp | .rdDspcr | .wrDsp _
  | .rdRom _ | .wrRom _ _ | .deposit _ | .putc _ | .blink | .setcur _ _ | .cls | .tftpData _ _ _ _ | .connect _
  | .tbyteEtx _ | .tbyteLf _ | .tbyteDel _ | .tick | .reset | .poweron => true

end Sys2Proof
end

