-- ==== Sys2Proof/Decode.lean ====
section
/-! DEFINITION. The decoder (30_encoding.md R72, R76, R77, R81), total because no stimulus is illegal (R80); the encoder
written from the same formats; and the decode words of spec/opcode_table.json (R84). -/

namespace Sys2Proof

/-- A read by region and sub-offset (40_bus.md R100). -/
def decodeRead (p : Params) (a : Addr) : Instr :=
  match region p a with
  | .ram i => .rdRam i
  | .aliasWindow off => .rdAlias off
  | .io sub =>
    if sub.val = 0 then .rdKbd
    else if sub.val = 1 then .rdKbdcr
    else if sub.val = 2 then .rdDsp
    else if sub.val = 3 then .rdDspcr
    else .rdIox sub
  | .rom i => .rdRom i
  | .unmapped => .rdNone a

/-- A write by region (40_bus.md R101). -/
def decodeWrite (p : Params) (a : Addr) (v : Byte) : Instr :=
  match region p a with
  | .ram i => .wrRam i v
  | .aliasWindow off => .wrAlias off v
  | .io sub => if sub.val = 2 then .wrDsp v else .wrIox sub v
  | .rom i => .wrRom i v
  | .unmapped => .wrNone a v

/-- A bus transaction (R71). -/
def decodeBus (p : Params) : BusTxn → Instr
  | .rd a => decodeRead p a
  | .wr a v => decodeWrite p a v

/-- A datagram: the length test first, then the 16-bit opcode (R76, R73). -/
def decodeUdp (s : Session) : List Byte → Instr
  | o1 :: o0 :: b2 :: b3 :: payload =>
    if bigEndian o1 o0 = opWrq then .tftpWrq s (b2 :: b3 :: payload)
    else if bigEndian o1 o0 = opData then .tftpData s b2 b3 payload
    else .tftpOther s (bigEndian o1 o0) (b2 :: b3 :: payload)
  | q => .tftpShort s q

/-- A received byte, 0x03 first (R77). -/
def decodeByte (s : Session) (b : Byte) : Instr :=
  if b = etx then .tbyteEtx s
  else if isLower b then .tbyteLower s b
  else if b = lineFeed then .tbyteLf s
  else if b = delete then .tbyteDel s
  else .tbytePass s b

/-- The operation a stimulus selects (R81). -/
def decode (p : Params) : Stimulus → Instr
  | .bus t => decodeBus p t
  | .udp s q => decodeUdp s q
  | .tcpb s b => decodeByte s b
  | .tcpc s => .connect s
  | .evt .blink => .blink
  | .evt .tick => .tick
  | .evt .poweron => .poweron

/-- The operation a call names (R75). -/
def decodeCall : Call → Instr
  | .deposit b => .deposit b
  | .putc b => .putc b
  | .setcur x y => .setcur x y
  | .cls => .cls
  | .reset => .reset

/-- The operation a presentation selects (R70, R81). -/
def decodePresentation (p : Params) : Presentation → Instr
  | .stimulus st => decode p st
  | .call c => decodeCall c

/-- The bus address `base + off`. -/
def busAddr (base off : Nat) : Addr := BitVec.ofNat 16 (base + off)

/-- The two opcode bytes of a datagram, high byte first (R73). -/
def opBytes (op : BitVec 16) : List Byte := [BitVec.ofNat 8 (op.toNat / 256), BitVec.ofNat 8 (op.toNat % 256)]

/-- The presentation of an operation (R70 to R75). -/
def encode (p : Params) : Instr → Presentation
  | .rdRam i => .stimulus (.bus (.rd (busAddr 0 i.val)))
  | .wrRam i v => .stimulus (.bus (.wr (busAddr 0 i.val) v))
  | .rdAlias off => .stimulus (.bus (.rd (busAddr p.aliasBase off.val)))
  | .wrAlias off v => .stimulus (.bus (.wr (busAddr p.aliasBase off.val) v))
  | .rdKbd => .stimulus (.bus (.rd (busAddr p.ioBase 0)))
  | .rdKbdcr => .stimulus (.bus (.rd (busAddr p.ioBase 1)))
  | .rdDsp => .stimulus (.bus (.rd (busAddr p.ioBase 2)))
  | .rdDspcr => .stimulus (.bus (.rd (busAddr p.ioBase 3)))
  | .rdIox sub => .stimulus (.bus (.rd (busAddr p.ioBase sub.val)))
  | .wrDsp v => .stimulus (.bus (.wr (busAddr p.ioBase 2) v))
  | .wrIox sub v => .stimulus (.bus (.wr (busAddr p.ioBase sub.val) v))
  | .rdRom i => .stimulus (.bus (.rd (busAddr 0xFF00 i.val)))
  | .wrRom i v => .stimulus (.bus (.wr (busAddr 0xFF00 i.val) v))
  | .rdNone a => .stimulus (.bus (.rd a))
  | .wrNone a v => .stimulus (.bus (.wr a v))
  | .deposit b => .call (.deposit b)
  | .putc b => .call (.putc b)
  | .blink => .stimulus (.evt .blink)
  | .setcur x y => .call (.setcur x y)
  | .cls => .call .cls
  | .tftpShort s q => .stimulus (.udp s q)
  | .tftpWrq s body => .stimulus (.udp s (opBytes opWrq ++ body))
  | .tftpData s hi lo payload => .stimulus (.udp s (opBytes opData ++ hi :: lo :: payload))
  | .tftpOther s op body => .stimulus (.udp s (opBytes op ++ body))
  | .connect s => .stimulus (.tcpc s)
  | .tbyteEtx s => .stimulus (.tcpb s etx)
  | .tbyteLower s b => .stimulus (.tcpb s b)
  | .tbyteLf s => .stimulus (.tcpb s lineFeed)
  | .tbyteDel s => .stimulus (.tcpb s delete)
  | .tbytePass s b => .stimulus (.tcpb s b)
  | .tick => .stimulus (.evt .tick)
  | .reset => .call .reset
  | .poweron => .stimulus (.evt .poweron)

/-- The stimulus of a decode word of the table (R84). The number of bits selects the format, since the table's three
word widths differ: 17 bits (`rw` in bit 16, `addr` in bits 15..0) are `BUS` with data 0, 16 bits are the opcode of a
datagram of four bytes whose bytes 2 and 3 are 0, 8 bits are the byte of a `TCPB`. A format without a word (R84: `width`
0) has none (log entry 17). -/
def wordStimulus (nbits w : Nat) : Option Stimulus :=
  if nbits = 0 ∨ 24 < nbits then none
  else if nbits ≤ 8 then if w < 2 ^ 8 then some (.tcpb 0 (BitVec.ofNat 8 w)) else none
  else if nbits ≤ 16 then
    if w < 2 ^ 16 then some (.udp 0 (opBytes (BitVec.ofNat 16 w) ++ [0x00, 0x00])) else none
  else if w < 2 ^ 16 then some (.bus (.rd (BitVec.ofNat 16 w)))
  else if w < 2 ^ 17 then some (.bus (.wr (BitVec.ofNat 16 w) 0x00))
  else none

/-- The operation the decoder reads from a decode word, under the default parameters, whose bit patterns the table lists
(R84). -/
def decodeTableWord (nbits w : Nat) : Option Instr :=
  (wordStimulus nbits w).map (decode Params.default)

/-- The mnemonic of an operation (R81). -/
def Instr.mnemonic : Instr → Mnemonic
  | .rdRam _ => .rdRam
  | .wrRam _ _ => .wrRam
  | .rdAlias _ => .rdAlias
  | .wrAlias _ _ => .wrAlias
  | .rdKbd => .rdKbd
  | .rdKbdcr => .rdKbdcr
  | .rdDsp => .rdDsp
  | .rdDspcr => .rdDspcr
  | .rdIox _ => .rdIox
  | .wrDsp _ => .wrDsp
  | .wrIox _ _ => .wrIox
  | .rdRom _ => .rdRom
  | .wrRom _ _ => .wrRom
  | .rdNone _ => .rdNone
  | .wrNone _ _ => .wrNone
  | .deposit _ => .deposit
  | .putc _ => .putc
  | .blink => .blink
  | .setcur _ _ => .setcur
  | .cls => .cls
  | .tftpShort _ _ => .tftpShort
  | .tftpWrq _ _ => .tftpWrq
  | .tftpData _ _ _ _ => .tftpData
  | .tftpOther _ _ _ => .tftpOther
  | .connect _ => .connect
  | .tbyteEtx _ => .tbyteEtx
  | .tbyteLower _ _ => .tbyteLower
  | .tbyteLf _ => .tbyteLf
  | .tbyteDel _ => .tbyteDel
  | .tbytePass _ _ => .tbytePass
  | .tick => .tick
  | .reset => .reset
  | .poweron => .poweron

/-- The format of an operation (R81, the table's column `format`). -/
def Instr.format : Instr → Format
  | .rdRam _ => .bus
  | .wrRam _ _ => .bus
  | .rdAlias _ => .bus
  | .wrAlias _ _ => .bus
  | .rdKbd => .bus
  | .rdKbdcr => .bus
  | .rdDsp => .bus
  | .rdDspcr => .bus
  | .rdIox _ => .bus
  | .wrDsp _ => .bus
  | .wrIox _ _ => .bus
  | .rdRom _ => .bus
  | .wrRom _ _ => .bus
  | .rdNone _ => .bus
  | .wrNone _ _ => .bus
  | .deposit _ => .call
  | .putc _ => .call
  | .blink => .evt
  | .setcur _ _ => .call
  | .cls => .call
  | .tftpShort _ _ => .udp
  | .tftpWrq _ _ => .udp
  | .tftpData _ _ _ _ => .udp
  | .tftpOther _ _ _ => .udp
  | .connect _ => .tcpc
  | .tbyteEtx _ => .tcpb
  | .tbyteLower _ _ => .tcpb
  | .tbyteLf _ => .tcpb
  | .tbyteDel _ => .tcpb
  | .tbytePass _ _ => .tcpb
  | .tick => .evt
  | .reset => .call
  | .poweron => .evt

/-- The format of a stimulus (R70). -/
def Stimulus.format : Stimulus → Format
  | .bus _ => .bus
  | .udp _ _ => .udp
  | .tcpb _ _ => .tcpb
  | .tcpc _ => .tcpc
  | .evt _ => .evt

/-- The format of a presentation (R70). -/
def Presentation.format : Presentation → Format
  | .stimulus st => st.format
  | .call _ => .call

/-- One row of spec/opcode_table.json that has a decode word (R84): it applies to `w` when `w & mask = pattern`. -/
structure TableRow where
  op : Mnemonic
  pattern : Nat
  mask : Nat
  priority : Nat
deriving DecidableEq, Repr

/-- The applying row with the smallest priority number (R84). -/
def selectRow : List TableRow → Nat → Option TableRow
  | [], _ => none
  | r :: rs, w =>
    match selectRow rs w with
    | none => if w &&& r.mask = r.pattern then some r else none
    | some q => if w &&& r.mask = r.pattern ∧ r.priority ≤ q.priority then some r else some q

/-- The rows of format `BUS`; the patterns of the two windows are those of the default parameters (R72). -/
def busRows : List TableRow :=
  [⟨.rdRam, 0x00000, 0x1C000, 1⟩, ⟨.rdRam, 0x04000, 0x1F000, 1⟩, ⟨.wrRam, 0x10000, 0x1C000, 1⟩,
   ⟨.wrRam, 0x14000, 0x1F000, 1⟩, ⟨.rdAlias, 0x0E000, 0x1F000, 2⟩, ⟨.wrAlias, 0x1E000, 0x1F000, 2⟩,
   ⟨.rdKbd, 0x0D010, 0x1FFFF, 3⟩, ⟨.rdKbdcr, 0x0D011, 0x1FFFF, 3⟩, ⟨.rdDsp, 0x0D012, 0x1FFFF, 3⟩,
   ⟨.rdDspcr, 0x0D013, 0x1FFFF, 3⟩, ⟨.rdIox, 0x0D010, 0x1FFF0, 4⟩, ⟨.wrDsp, 0x1D012, 0x1FFFF, 3⟩,
   ⟨.wrIox, 0x1D010, 0x1FFF0, 4⟩, ⟨.rdRom, 0x0FF00, 0x1FF00, 5⟩, ⟨.wrRom, 0x1FF00, 0x1FF00, 5⟩,
   ⟨.rdNone, 0x00000, 0x10000, 9⟩, ⟨.wrNone, 0x10000, 0x10000, 9⟩]

/-- The rows of format `UDP` for a datagram of at least four bytes (the others are `TFTP.SHORT` by their length). -/
def udpRows : List TableRow :=
  [⟨.tftpWrq, 0x0002, 0xFFFF, 1⟩, ⟨.tftpData, 0x0003, 0xFFFF, 1⟩, ⟨.tftpOther, 0x0000, 0x0000, 2⟩]

/-- The rows of format `TCPB`. -/
def byteRows : List TableRow :=
  [⟨.tbyteEtx, 0x03, 0xFF, 0⟩, ⟨.tbyteLower, 0x61, 0xFF, 1⟩, ⟨.tbyteLower, 0x62, 0xFE, 1⟩,
   ⟨.tbyteLower, 0x64, 0xFC, 1⟩, ⟨.tbyteLower, 0x68, 0xF8, 1⟩, ⟨.tbyteLower, 0x70, 0xF8, 1⟩,
   ⟨.tbyteLower, 0x78, 0xFE, 1⟩, ⟨.tbyteLower, 0x7A, 0xFF, 1⟩, ⟨.tbyteLf, 0x0A, 0xFF, 1⟩,
   ⟨.tbyteDel, 0x7F, 0xFF, 1⟩, ⟨.tbytePass, 0x00, 0x00, 9⟩]

end Sys2Proof
end

