-- ==== Sys2Proof/Machine/Grid.lean ====
section
/-! DEFINITION. TerminalBuffer (10_state.md R20): 24 rows of 40 cell codes, row 0 at the top, column 0 at the left. -/

namespace Sys2Proof.Machine

/-- A row of 40 cell codes. -/
abbrev Row := Vector Code 40

/-- The grid of 24 rows. -/
abbrev Grid := Vector Row 24

/-- `BLANK` (R3, decision D13): the cell code of a blank. -/
def blankCode : Code := 0x20

/-- A row of blanks. -/
def blankRow : Row := Vector.replicate 40 blankCode

/-- Every cell blank. -/
def Grid.blank : Grid := Vector.replicate 24 blankRow

/-- `cell[r][c]`. -/
def Grid.code (g : Grid) (r : Fin 24) (c : Fin 40) : Code := g[r.val][c.val]

/-- `cell[r][c] <- v`. -/
def Grid.put (g : Grid) (r : Fin 24) (c : Fin 40) (v : Code) : Grid := g.set r.val (g[r.val].set c.val v)

/-- `SCROLL` (42_terminal.md R141): rows 1..23 become rows 0..22, row 23 becomes blank. -/
def Grid.scroll (g : Grid) : Grid := ⟨⟨g.toList.tail ++ [blankRow]⟩, by simp⟩

end Sys2Proof.Machine
end

