-- ==== Sys2Proof/Machine/Memory.lean ====
section
/-! DEFINITION. MemoryImage (10_state.md R11) as a list of cells in one canonical form: addresses strictly rising, all below
`RAM_SIZE`, and no cell equal to the fill byte, which is what an unlisted index reads as. -/

namespace Sys2Proof.Machine

/-- The RAM array: the listed cells; every other index holds `ramFill`. -/
abbrev Memory := List Host.Cell

/-- `FILL` (R3, 70_reset_and_hazards.md R250): what the reset operation stores in every RAM cell, and so what an unlisted
index reads as (log entry 5). -/
def ramFill : Byte := 0xFF

/-- `RAM[i]`. -/
def Memory.read : Memory → Nat → Byte
  | [], _ => ramFill
  | (k, b) :: m, i => if i = k then b else Memory.read m i

/-- The cells at indices other than `i`. -/
def Memory.erase : Memory → Nat → Memory
  | [], _ => []
  | (k, b) :: m, i => if i = k then Memory.erase m i else (k, b) :: Memory.erase m i

/-- A cell put before the first cell of a higher index. -/
def Memory.place : Memory → Nat → Byte → Memory
  | [], i, v => [(i, v)]
  | (k, b) :: m, i, v => if i < k then (i, v) :: (k, b) :: m else (k, b) :: Memory.place m i v

/-- `RAM[i] <- v`. -/
def Memory.write (m : Memory) (i : Nat) (v : Byte) : Memory :=
  if v = ramFill then m.erase i else (m.erase i).place i v

/-- Bytes stored at consecutive ascending indices from `i` (43_tftp.md R172). -/
def Memory.store : Memory → Nat → List Byte → Memory
  | m, _, [] => m
  | m, i, b :: bs => Memory.store (m.write i b) (i + 1) bs

/-- Every cell holding `FILL` (R250): nothing is listed. -/
def Memory.filled : Memory := []

/-- The canonical form from a lower bound of the indices on. -/
def Memory.wfFrom : Nat → Memory → Bool
  | _, [] => true
  | lo, (k, b) :: m => decide (lo ≤ k) && decide (k < 0x5000) && decide (b ≠ ramFill) && Memory.wfFrom (k + 1) m

/-- The canonical form. -/
def Memory.wf (m : Memory) : Bool := Memory.wfFrom 0 m

end Sys2Proof.Machine
end

