-- ==== Sys2Proof/Machine/State.lean ====
section
/-! DEFINITION. The block's state (10_state.md R10), its ports and environment (R27), the outcomes that stop a step, and the
state after power-on (70_reset_and_hazards.md R252). -/

namespace Sys2Proof.Machine

/-- One entry of the output trace (00_scope.md section 6). -/
inductive Output where
  | udp (s : Session) (bytes : List Byte)   -- `emit UDP(s, bytes)`
  | tcp (s : Session) (bytes : List Byte)   -- `emit TCP(s, bytes)`
  | cpuReset                                -- `emit cpu_reset`
deriving DecidableEq, Repr

/-- Why a run stops. -/
inductive Fault where
  /-- `fault TFTP_RANGE` (43_tftp.md R175, 60_exceptions.md R222), raised by `TFTP.DATA` alone: a non-empty payload would
  pass index 0x4FFF. The source gives no result, so the run stops. Safe. -/
  | tftpRange
deriving DecidableEq, Repr

/-- Why an instruction has no meaning. -/
inductive Refusal where
  /-- Raised by an arm of `exec` whose instruction is not modelled yet; no arm raises it now. Safe. -/
  | notModelled (mnemonic : String)
deriving DecidableEq, Repr

/-- The state of the block, and around it the parameters of the run, the two output ports and the environment's queues. -/
structure State where
  /-- The parameters of the build (R3, R4); no step changes them. -/
  params : Params
  /-- MemoryImage `RAM[0..20479]` (R11). -/
  ram : Memory
  /-- `KBD`, keyboard_register (R13). -/
  kbd : Byte
  /-- `KBDCR`, keyboard_control (R14). -/
  kbdcr : Byte
  /-- `DSP`, display_register (R15). -/
  dsp : Byte
  /-- `DSPCR`, display_control (R16). -/
  dspcr : Byte
  /-- TerminalBuffer `cell[0..23][0..39]` (R20). -/
  cell : Grid
  /-- Cursor column, 0..40; 40 means a wrap is pending (R21). -/
  col : Fin 41
  /-- Cursor row (R21). -/
  row : Fin 24
  /-- Blink phase (R22). -/
  vis : Bool
  /-- Cursor-render inhibit (R23). -/
  dis : Bool
  /-- TFTP transfer cursor (R24). -/
  tcur : BitVec 16
  /-- Port: the bytes returned by `RD`, oldest first (R27; the model's field, log entry 10). -/
  replies : List Byte
  /-- Port: the ordered output trace (R27; the model's field, log entry 10). -/
  out : List Output
  /-- How many draws have been taken (`any8`; the model's field, log entry 4). -/
  draws : Nat
  /-- Environment: the stimuli not yet delivered, next first (R5, R51; the model's field, log entry 7). -/
  inbox : List Stimulus
  /-- Environment: what the external CPU engine does in the coming ticks (R210; the model's field, log entry 8). -/
  cpu : CpuPlan
deriving DecidableEq, Repr

/-- The state after `POWERON` (R252, 10_state.md section 8), with the default parameters and nothing queued. -/
def State.reset : State where
  params := Params.default
  ram := Memory.filled
  kbd := 0x00
  kbdcr := 0x00
  dsp := 0x00
  dspcr := 0x00
  cell := Grid.blank
  col := 0
  row := 0
  vis := false
  dis := false
  tcur := 0x0000
  replies := []
  out := [.cpuReset]
  draws := 0
  inbox := []
  cpu := .halt

end Sys2Proof.Machine
end

