-- ==== Sys2Proof/Machine/Ops.lean ====
section
/-! DEFINITION. The named operations over the state: RAM, the output ports, draws, the mailbox, the terminal, and the
delivery of stimuli. The block raises no exception and has no trap entry or return (60_exceptions.md R220, R226, R227), so no
operation here takes one; the reset operation, its only recovery, is in Machine/Reset.lean. -/

namespace Sys2Proof.Machine

/-- `RAM[i]` (10_state.md R11). -/
def State.readRam (s : State) (i : RamIndex) : Byte := s.ram.read i.val

/-- `RAM[i] <- v`. -/
def State.writeRam (s : State) (i : RamIndex) (v : Byte) : State := { s with ram := s.ram.write i.val v }

/-- The byte an `RD` returns to the CPU (R27). -/
def State.reply (s : State) (b : Byte) : State := { s with replies := s.replies ++ [b] }

/-- A fresh unconstrained byte, `any8`, returned to the CPU. -/
def State.replyDraw (s : State) : State :=
  { s with replies := s.replies ++ [Config.draw s.draws], draws := s.draws + 1 }

/-- `emit` (00_scope.md section 6): an output appended to the ordered trace. -/
def State.emit (s : State) (o : Output) : State := { s with out := s.out ++ [o] }

/-- The key-pending flag cleared (41_pia.md R121). -/
def State.takeKey (s : State) : State := { s with kbdcr := keyIdle }

/-- `DEPOSIT b` (R127): the byte with its top bit set, and the key-pending flag. -/
def State.putKey (s : State) (b : Byte) : State := { s with kbd := b ||| topBit, kbdcr := keyPending }

/-- `DSP <- v` (R125). -/
def State.setDsp (s : State) (v : Byte) : State := { s with dsp := v }

/-- The cursor inhibited or enabled (42_terminal.md R140 steps 1 and 4). -/
def State.setDis (s : State) (d : Bool) : State := { s with dis := d }

/-- The new line of step 2 (R140): column 0, and the next row or a scroll. -/
def State.newLine (s : State) : State :=
  if h : s.row.val = 23 then { s with col := 0, cell := s.cell.scroll }
  else { s with col := 0, row := ⟨s.row.val + 1, by omega⟩ }

/-- The store of step 3 (R140): the code at the cursor, then the column advanced. Column 40, where there is no cell, is
never reached here (R140 (f)). -/
def State.storeCode (s : State) (v : Code) : State :=
  if h : s.col.val < 40 then
    { s with cell := s.cell.put s.row ⟨s.col.val, h⟩ v, col := ⟨s.col.val + 1, by omega⟩ }
  else s

/-- The condition of step 2 (R140): a pending wrap, carriage-return or line-feed. -/
def State.wraps (s : State) (b : Byte) : Bool := decide (39 < s.col.val) || isNewLine b

/-- `PUTC b` (R140), its four steps in order. -/
def State.putChar (s : State) (b : Byte) : State :=
  let s1 := s.setDis true
  let s2 := if s1.wraps b then s1.newLine else s1
  let s3 := if isPrintable b then s2.storeCode (cellCode b) else s2
  s3.setDis false

/-- `SETCUR x, y` (R144): the column clamped; with `y` out of range the column forced to 23 and the row kept. -/
def State.setCursor (s : State) (x y : Byte) : State :=
  if h : y.toNat < 24 then
    { s with col := if hx : x.toNat < 40 then ⟨x.toNat, by omega⟩ else 39, row := ⟨y.toNat, h⟩ }
  else { s with col := 23 }

/-- `CLS` (R145) by its net effect, which the rule allows a model to implement directly: every cell blank, the cursor at
(0, 0), the inhibit off (log entry 12). -/
def State.clearScreen (s : State) : State := { s with cell := Grid.blank, col := 0, row := 0, dis := false }

/-- The blink phase flipped (R143). -/
def State.flipVis (s : State) : State := { s with vis := !s.vis }

/-- `view(r, c)` (R146): the glyph at a lit cursor, the stored code elsewhere. -/
def State.view (s : State) (r : Fin 24) (c : Fin 40) : Code :=
  if s.vis && !s.dis && decide (r.val = s.row.val) && decide (c.val = s.col.val) then s.params.cursorGlyph
  else s.cell.code r c

/-- The transfer cursor set (43_tftp.md R171). -/
def State.setTcur (s : State) (t : BitVec 16) : State := { s with tcur := t }

/-- The load pointer: `RAM[0x26] | (RAM[0x27] << 8)` (R171). -/
def State.loadPointer (s : State) : BitVec 16 := littleEndian (s.readRam 0x26) (s.readRam 0x27)

/-- A data payload stored at the transfer cursor, which advances by its length (R172). -/
def State.storePayload (s : State) (payload : List Byte) : State :=
  { s with ram := s.ram.store s.tcur.toNat payload, tcur := BitVec.ofNat 16 (s.tcur.toNat + payload.length) }

/-- Some payload byte would fall at index 0x5000 or above (R175). -/
def State.pastRam (s : State) (payload : List Byte) : Bool :=
  decide (0 < payload.length) && decide (0x5000 < s.tcur.toNat + payload.length)

/-- The next stimulus, taken from the inbox (R51, R52). -/
def State.fetch (s : State) : Option (Stimulus × State) :=
  match s.inbox with
  | [] => none
  | st :: rest => some (st, { s with inbox := rest })

/-- A stimulus put where the next step takes it. -/
def State.deliver (s : State) (st : Stimulus) : State := { s with inbox := st :: s.inbox }

/-- What the CPU engine does from here on. -/
def State.setPlan (s : State) (p : CpuPlan) : State := { s with cpu := p }

/-- The byte the latest `RD` returned, if there was one. -/
def State.lastByte (s : State) : Option Byte := s.replies.getLast?

end Sys2Proof.Machine
end

