-- ==== Sys2Proof/Machine/Bus.lean ====
section
/-! DEFINITION. The bus operations outside the I/O window (40_bus.md): RAM, the alias window, the ROM window and the
unmapped addresses. None of them stops. -/

namespace Sys2Proof.Machine

/-- `RD.RAM` (R102). -/
def rdRam (i : RamIndex) (s : State) : State := s.reply (s.readRam i)

/-- `WR.RAM` (R103). -/
def wrRam (i : RamIndex) (v : Byte) (s : State) : State := s.writeRam i v

/-- `RD.ALIAS` (R104): the RAM cell behind the window. -/
def rdAlias (off : Fin 0x1000) (s : State) : State := s.reply (s.readRam (aliasIndex s.params off))

/-- `WR.ALIAS` (R105). -/
def wrAlias (off : Fin 0x1000) (v : Byte) (s : State) : State := s.writeRam (aliasIndex s.params off) v

/-- `RD.ROM` (R106). -/
def rdRom (i : Fin 256) (s : State) : State := s.reply s.params.rom[i.val]

/-- `WR.ROM` (R107): ignored. -/
def wrRom (_i : Fin 256) (_v : Byte) (s : State) : State := s

/-- `RD.NONE` (R108): the sentinel. -/
def rdNone (_a : Addr) (s : State) : State := s.reply sentinel

/-- `WR.NONE` (R109): discarded. -/
def wrNone (_a : Addr) (_v : Byte) (s : State) : State := s

def execRdRam (i : RamIndex) (s : State) : Host.Outcome State Fault Refusal := .next (rdRam i s)
def execWrRam (i : RamIndex) (v : Byte) (s : State) : Host.Outcome State Fault Refusal := .next (wrRam i v s)
def execRdAlias (off : Fin 0x1000) (s : State) : Host.Outcome State Fault Refusal := .next (rdAlias off s)
def execWrAlias (off : Fin 0x1000) (v : Byte) (s : State) : Host.Outcome State Fault Refusal := .next (wrAlias off v s)
def execRdRom (i : Fin 256) (s : State) : Host.Outcome State Fault Refusal := .next (rdRom i s)
def execWrRom (i : Fin 256) (v : Byte) (s : State) : Host.Outcome State Fault Refusal := .next (wrRom i v s)
def execRdNone (a : Addr) (s : State) : Host.Outcome State Fault Refusal := .next (rdNone a s)
def execWrNone (a : Addr) (v : Byte) (s : State) : Host.Outcome State Fault Refusal := .next (wrNone a v s)

end Sys2Proof.Machine
end

