-- ==== Sys2Proof/Machine/Pia.lean ====
section
/-! DEFINITION. The operations on the I/O window (41_pia.md): the keyboard mailbox and the display registers. None of them
stops. -/

namespace Sys2Proof.Machine

/-- `RD.KBD` (R121): the last key, and the key-pending flag cleared. -/
def rdKbd (s : State) : State := s.takeKey.reply s.kbd

/-- `RD.KBDCR` (R122): the flag, left as it is. -/
def rdKbdcr (s : State) : State := s.reply s.kbdcr

/-- `RD.DSP` (R123): by `DSP_READBACK`; under `ANY` a free byte (log entry 4). -/
def rdDsp (s : State) : State :=
  match s.params.dspReadback with
  | .any => s.replyDraw
  | .stored => s.reply s.dsp
  | .zero => s.reply 0x00

/-- `RD.DSPCR` (R124). -/
def rdDspcr (s : State) : State := s.reply s.dspcr

/-- `RD.IOX` (R128): no register stands there, a free byte (log entry 4). -/
def rdIox (_sub : Fin 16) (s : State) : State := s.replyDraw

/-- `WR.DSP` (R125): the byte kept as written, its copy printed with the top bit inverted. -/
def wrDsp (v : Byte) (s : State) : State := (s.setDsp v).putChar (v ^^^ topBit)

/-- `WR.IOX` (R126): discarded. -/
def wrIox (_sub : Fin 16) (_v : Byte) (s : State) : State := s

def execRdKbd (s : State) : Host.Outcome State Fault Refusal := .next (rdKbd s)
def execRdKbdcr (s : State) : Host.Outcome State Fault Refusal := .next (rdKbdcr s)
def execRdDsp (s : State) : Host.Outcome State Fault Refusal := .next (rdDsp s)
def execRdDspcr (s : State) : Host.Outcome State Fault Refusal := .next (rdDspcr s)
def execRdIox (sub : Fin 16) (s : State) : Host.Outcome State Fault Refusal := .next (rdIox sub s)
def execWrDsp (v : Byte) (s : State) : Host.Outcome State Fault Refusal := .next (wrDsp v s)
def execWrIox (sub : Fin 16) (v : Byte) (s : State) : Host.Outcome State Fault Refusal := .next (wrIox sub v s)

/-- `DEPOSIT` (R127). -/
def execDeposit (b : Byte) (s : State) : Host.Outcome State Fault Refusal := .next (s.putKey b)

end Sys2Proof.Machine
end

