-- ==== Sys2Proof/Machine/Reset.lean ====
section
/-! DEFINITION. The reset operation and power-on (70_reset_and_hazards.md). -/

namespace Sys2Proof.Machine

/-- `RESET` (R250): RAM filled, the screen cleared, the CPU's reset pulsed, in the source's order. What it leaves alone is
R251. -/
def State.resetAll (s : State) : State := ({ s with ram := Memory.filled }.clearScreen).emit .cpuReset

/-- `RESET` (R250). -/
def execReset (s : State) : Host.Outcome State Fault Refusal := .next s.resetAll

/-- The registers at their power-on values (R252, decision D21). -/
def State.quiesce (s : State) : State :=
  { s with kbd := 0x00, kbdcr := 0x00, dsp := 0x00, dspcr := 0x00, vis := false, dis := false, col := 0, row := 0,
           tcur := 0x0000 }

/-- `POWERON` (R252). -/
def execPoweron (s : State) : Host.Outcome State Fault Refusal :=
  .next (if Config.bootReset then s.quiesce.resetAll else s.quiesce)

end Sys2Proof.Machine
end

