-- ==== Sys2Proof/Machine/Scheduler.lean ====
section
/-! DEFINITION. The scheduler's tick (45_scheduler.md R210): one batch of bus transactions, contiguous because it is one
step (20_memory.md R53). -/

namespace Sys2Proof.Machine

/-- `RD a` (40_bus.md R100), by region and sub-offset. -/
def busRead (a : Addr) (s : State) : State :=
  match region s.params a with
  | .ram i => rdRam i s
  | .aliasWindow off => rdAlias off s
  | .io sub =>
    if sub.val = 0 then rdKbd s
    else if sub.val = 1 then rdKbdcr s
    else if sub.val = 2 then rdDsp s
    else if sub.val = 3 then rdDspcr s
    else rdIox sub s
  | .rom i => rdRom i s
  | .unmapped => rdNone a s

/-- `WR a, v` (R101), by region. -/
def busWrite (a : Addr) (v : Byte) (s : State) : State :=
  match region s.params a with
  | .ram i => wrRam i v s
  | .aliasWindow off => wrAlias off v s
  | .io sub => if sub.val = 2 then wrDsp v s else wrIox sub v s
  | .rom i => wrRom i v s
  | .unmapped => wrNone a v s

/-- One bus transaction. -/
def busTxn : BusTxn → State → State
  | .rd a, s => busRead a s
  | .wr a v, s => busWrite a v s

/-- The transactions the CPU engine issues up to the end of the tick, each to completion and each chosen after the byte
of the one before (R210); what it does later is kept. -/
def runPlan : CpuPlan → State → State
  | .halt, s => s.setPlan .halt
  | .endTick next, s => s.setPlan next
  | .txn t next, s => runPlan next (busTxn t s)
  | .ifByte b yes no, s => if s.lastByte = some b then runPlan yes s else runPlan no s

/-- `TICK` (R210). The bracket itself changes nothing. -/
def execTick (s : State) : Host.Outcome State Fault Refusal := .next (runPlan s.cpu s)

end Sys2Proof.Machine
end

