-- ==== Sys2Proof/Machine/Telnet.lean ====
section
/-! DEFINITION. The Telnet operations (44_telnet.md): the greeting and the five classes of received byte. The filter keeps
nothing per connection (10_state.md R26), so the handle takes no part but in the greeting. -/

namespace Sys2Proof.Machine

/-- `CONNECT` (R190): the greeting to the new connection. -/
def execConnect (s : Session) (st : State) : Host.Outcome State Fault Refusal := .next (st.emit (.tcp s greeting))

/-- `TBYTE.ETX` (R192): the reset operation, no deposit. -/
def execTbyteEtx (_s : Session) (st : State) : Host.Outcome State Fault Refusal := .next st.resetAll

/-- `TBYTE.LOWER` (R193): upper-cased. -/
def execTbyteLower (_s : Session) (b : Byte) (st : State) : Host.Outcome State Fault Refusal :=
  .next (st.putKey (b ^^^ caseBit))

/-- `TBYTE.LF` (R194): carriage-return. -/
def execTbyteLf (_s : Session) (st : State) : Host.Outcome State Fault Refusal := .next (st.putKey carriageReturn)

/-- `TBYTE.DEL` (R195): underscore. -/
def execTbyteDel (_s : Session) (st : State) : Host.Outcome State Fault Refusal := .next (st.putKey underscore)

/-- `TBYTE.PASS` (R196): unchanged. -/
def execTbytePass (_s : Session) (b : Byte) (st : State) : Host.Outcome State Fault Refusal := .next (st.putKey b)

end Sys2Proof.Machine
end

