-- ==== Sys2Proof/Machine/Terminal.lean ====
section
/-! DEFINITION. The terminal operations (42_terminal.md). None of them stops. -/

namespace Sys2Proof.Machine

/-- `PUTC` (R140). -/
def execPutc (b : Byte) (s : State) : Host.Outcome State Fault Refusal := .next (s.putChar b)

/-- `BLINK` (R143): the phase flips whatever `dis` is. -/
def execBlink (s : State) : Host.Outcome State Fault Refusal := .next s.flipVis

/-- `SETCUR` (R144). -/
def execSetcur (x y : Byte) (s : State) : Host.Outcome State Fault Refusal := .next (s.setCursor x y)

/-- `CLS` (R145). -/
def execCls (s : State) : Host.Outcome State Fault Refusal := .next s.clearScreen

end Sys2Proof.Machine
end

