-- ==== Sys2Proof/Machine/Tftp.lean ====
section
/-! DEFINITION. The loader's operations (43_tftp.md), one per class of datagram. The sender's handle is looked at by none of
them; the acknowledgment copies it (R172 (e)). -/

namespace Sys2Proof.Machine

/-- `TFTP.SHORT` (R170): dropped silently. -/
def execTftpShort (_s : Session) (_p : List Byte) (st : State) : Host.Outcome State Fault Refusal := .next st

/-- `TFTP.WRQ` (R171): the transfer cursor from the load pointer; nothing is emitted. -/
def execTftpWrq (_s : Session) (_body : List Byte) (st : State) : Host.Outcome State Fault Refusal :=
  .next (st.setTcur (loadTarget st.params st.loadPointer))

/-- `TFTP.DATA` (R172): the payload stored at the cursor and acknowledged, or the stop of R175. -/
def execTftpData (s : Session) (hi lo : Byte) (payload : List Byte) (st : State) : Host.Outcome State Fault Refusal :=
  if st.pastRam payload then .fault .tftpRange
  else .next ((st.storePayload payload).emit (.udp s (ackBytes hi lo)))

/-- `TFTP.OTHER` (R173): ignored. -/
def execTftpOther (_s : Session) (_op : BitVec 16) (_body : List Byte) (st : State) :
    Host.Outcome State Fault Refusal := .next st

end Sys2Proof.Machine
end

