-- ==== Sys2Proof/Machine/Dispatch.lean ====
section
/-! DEFINITION. One arm per operation (30_encoding.md R81). -/

namespace Sys2Proof.Machine

def exec (i : Instr) (s : State) : Host.Outcome State Fault Refusal :=
  match i with
  | .rdRam j => Sys2Proof.Machine.execRdRam j s
  | .wrRam j v => Sys2Proof.Machine.execWrRam j v s
  | .rdAlias off => Sys2Proof.Machine.execRdAlias off s
  | .wrAlias off v => Sys2Proof.Machine.execWrAlias off v s
  | .rdKbd => Sys2Proof.Machine.execRdKbd s
  | .rdKbdcr => Sys2Proof.Machine.execRdKbdcr s
  | .rdDsp => Sys2Proof.Machine.execRdDsp s
  | .rdDspcr => Sys2Proof.Machine.execRdDspcr s
  | .rdIox sub => Sys2Proof.Machine.execRdIox sub s
  | .wrDsp v => Sys2Proof.Machine.execWrDsp v s
  | .wrIox sub v => Sys2Proof.Machine.execWrIox sub v s
  | .rdRom j => Sys2Proof.Machine.execRdRom j s
  | .wrRom j v => Sys2Proof.Machine.execWrRom j v s
  | .rdNone a => Sys2Proof.Machine.execRdNone a s
  | .wrNone a v => Sys2Proof.Machine.execWrNone a v s
  | .deposit b => Sys2Proof.Machine.execDeposit b s
  | .putc b => Sys2Proof.Machine.execPutc b s
  | .blink => Sys2Proof.Machine.execBlink s
  | .setcur x y => Sys2Proof.Machine.execSetcur x y s
  | .cls => Sys2Proof.Machine.execCls s
  | .tftpShort c p => Sys2Proof.Machine.execTftpShort c p s
  | .tftpWrq c body => Sys2Proof.Machine.execTftpWrq c body s
  | .tftpData c hi lo payload => Sys2Proof.Machine.execTftpData c hi lo payload s
  | .tftpOther c op body => Sys2Proof.Machine.execTftpOther c op body s
  | .connect c => Sys2Proof.Machine.execConnect c s
  | .tbyteEtx c => Sys2Proof.Machine.execTbyteEtx c s
  | .tbyteLower c b => Sys2Proof.Machine.execTbyteLower c b s
  | .tbyteLf c => Sys2Proof.Machine.execTbyteLf c s
  | .tbyteDel c => Sys2Proof.Machine.execTbyteDel c s
  | .tbytePass c b => Sys2Proof.Machine.execTbytePass c b s
  | .tick => Sys2Proof.Machine.execTick s
  | .reset => Sys2Proof.Machine.execReset s
  | .poweron => Sys2Proof.Machine.execPoweron s

end Sys2Proof.Machine
end

