-- ==== Sys2Proof/Machine/Step.lean ====
section
/-! DEFINITION. One step: the next stimulus of the inbox is decoded and executed to completion (20_memory.md R51, R52). -/

namespace Sys2Proof.Machine

/-- With no stimulus waiting the block waits: nothing changes (log entry 7). -/
def step (s : State) : Host.Outcome State Fault Refusal :=
  match s.fetch with
  | none => .next s
  | some (st, s') => exec (decode s'.params st) s'

/-- The stimulus of a decode word of the table (30_encoding.md R84), put at the head of the inbox; a word no format has
leaves the state as it is (log entries 16 and 17). -/
def State.withFetchWord (s : State) (nbits w : Nat) : State :=
  match wordStimulus nbits w with
  | none => s
  | some st => s.deliver st

end Sys2Proof.Machine
end

