-- ==== Sys2Proof/Safety.lean ====
section
/-! DEFINITION. The terms claims use: the invariant of a run, running operations one after another, counting scrolls, a
step that does not stop, what the CPU sees, and the parameters that no rule reads. -/

namespace Sys2Proof

/-- The parameters with other values of the four that no rule reads (00_scope.md R3, 93_implementation_defined.md U10). -/
def Params.withUnread (p : Params) (instr tick blink payload : Nat) : Params :=
  { p with instrPerTick := instr, tickPeriod := tick, blinkPeriod := blink, maxPayload := payload }

end Sys2Proof

namespace Sys2Proof.Machine

/-- What holds at every event boundary (10_state.md R14, R16, R23; 41_pia.md R129 (a)): the memory is in its canonical
form, the data-ready flag has one of its two values, a key (pending or read) has its top bit set, `DSPCR` has its
power-on value, and the cursor is not inhibited. The ranges of the cursor and of the cell codes (42_terminal.md R147) hold
by type. -/
def State.Inv (s : State) : Prop :=
  s.ram.wf = true ∧ (s.kbdcr = 0x00 ∨ s.kbdcr = 0xFF) ∧ (s.kbdcr = 0xFF → s.kbd.getLsbD 7 = true) ∧
    (s.kbd = 0x00 ∨ s.kbd.getLsbD 7 = true) ∧ s.dspcr = 0x00 ∧ s.dis = false

/-- Operations executed one after another, each to completion, until one stops. -/
def execAll : List Instr → State → Host.Outcome State Fault Refusal
  | [], s => .next s
  | i :: is, s =>
    match exec i s with
    | .next t => execAll is t
    | .fault f => .fault f
    | .refused r => .refused r

/-- The classes of a byte that `PUTC` tells apart (42_terminal.md R140 steps 2 and 3, R148 (f)). -/
inductive PutcClass where
  | newLine
  | printable
  | other
deriving DecidableEq, Repr

/-- The class of a byte. -/
def putcClass (b : Byte) : PutcClass :=
  if isNewLine b then .newLine else if isPrintable b then .printable else .other

/-- `PUTC b` scrolls the grid (42_terminal.md R140 step 2, R141): a new line is taken on the last row. -/
def State.scrollsOn (s : State) (b : Byte) : Bool :=
  decide (s.row.val = 23) && (decide (s.col.val = 40) || isNewLine b)

/-- How many scrolls the writing of the bytes causes. -/
def scrollCount : List Byte → State → Nat
  | [], _ => 0
  | b :: bs, s =>
    (if s.scrollsOn b then 1 else 0) +
      match exec (.putc b) s with
      | .next t => scrollCount bs t
      | .fault _ => 0
      | .refused _ => 0

/-- A safe step: it answers a next state. -/
def State.Safe (s : State) : Prop := ∃ t, step s = .next t

/-- The RAM cell a bus address names, through the RAM region or the alias window (20_memory.md R40, R46). -/
def busCell (p : Params) (a : Addr) : Option RamIndex :=
  match region p a with
  | .ram i => some i
  | .aliasWindow off => some (aliasIndex p off)
  | .io _ => none
  | .rom _ => none
  | .unmapped => none

/-- The state with other values of the four parameters that no rule reads. -/
def State.withUnread (s : State) (instr tick blink payload : Nat) : State :=
  { s with params := s.params.withUnread instr tick blink payload }

/-- What the CPU has a path to (60_exceptions.md R228), with the bytes it has been given: RAM, the PIA registers, and the
draws to come. -/
def State.cpuView (s : State) : Params × Memory × Byte × Byte × Byte × Byte × Nat × List Byte :=
  (s.params, s.ram, s.kbd, s.kbdcr, s.dsp, s.dspcr, s.draws, s.replies)

end Sys2Proof.Machine
end

