-- ==== Sys2Proof/Certificates/Slice0/Obligations.lean ====
section
/-! DEFINITION. The statements for the provers. A record written `{ t with ram := s.ram } = s` says that `t` differs from
`s` in RAM at most; so every other register, flag, port and queue is as before. The rules meant are those of spec/; a
statement whose rule rests on a decision of the spec names the decision (D<n> of 92_eei_decisions.md). -/

open Sys2Proof Sys2Proof.Machine

/-! ## Decoding -/

/-- The decoder gives back every operation that its stimulus or call presents, with every operand (R70 to R77). -/
def Obligations.DecodeOfEncode : Prop :=
  ∀ (p : Params) (i : Instr), i.wellFormed p = true → decodePresentation p (encode p i) = i

/-- Every stimulus and every call has one meaning: the operation it selects is well-formed and is presented by it alone (R80:
nothing is illegal). -/
def Obligations.EncodeOfDecode : Prop :=
  ∀ (p : Params) (q : Presentation),
    (decodePresentation p q).wellFormed p = true ∧ encode p (decodePresentation p q) = q

/-- The operation a bus address selects (R81, R100, R101): five regions by range, the I/O window by sub-offset. The places
of `KBDCR` and `DSPCR` are decision D7. -/
def Obligations.BusAddressSelectsOperation : Prop :=
  ∀ (p : Params) (a : Addr) (v : Byte),
    (∀ i : RamIndex, a.toNat = i.val →
      decode p (.bus (.rd a)) = .rdRam i ∧ decode p (.bus (.wr a v)) = .wrRam i v) ∧
    (∀ off : Fin 0x1000, a.toNat = p.aliasBase + off.val →
      decode p (.bus (.rd a)) = .rdAlias off ∧ decode p (.bus (.wr a v)) = .wrAlias off v) ∧
    (a.toNat = p.ioBase → decode p (.bus (.rd a)) = .rdKbd) ∧
    (a.toNat = p.ioBase + 1 → decode p (.bus (.rd a)) = .rdKbdcr) ∧
    (a.toNat = p.ioBase + 2 →
      decode p (.bus (.rd a)) = .rdDsp ∧ decode p (.bus (.wr a v)) = .wrDsp v) ∧
    (a.toNat = p.ioBase + 3 → decode p (.bus (.rd a)) = .rdDspcr) ∧
    (∀ sub : Fin 16, a.toNat = p.ioBase + sub.val →
      (4 ≤ sub.val → decode p (.bus (.rd a)) = .rdIox sub) ∧
      (sub.val ≠ 2 → decode p (.bus (.wr a v)) = .wrIox sub v)) ∧
    (∀ i : Fin 256, a.toNat = 0xFF00 + i.val →
      decode p (.bus (.rd a)) = .rdRom i ∧ decode p (.bus (.wr a v)) = .wrRom i v) ∧
    (0x5000 ≤ a.toNat → (a.toNat < p.aliasBase ∨ p.aliasBase + 0x1000 ≤ a.toNat) →
      (a.toNat < p.ioBase ∨ p.ioBase + 16 ≤ a.toNat) → a.toNat < 0xFF00 →
      decode p (.bus (.rd a)) = .rdNone a ∧ decode p (.bus (.wr a v)) = .wrNone a v)

/-- The operation a datagram selects (R76, R73): the length first, then the big-endian opcode (decision D18). -/
def Obligations.DatagramSelectsOperation : Prop :=
  ∀ (p : Params) (c : Session) (q : List Byte),
    (q.length < 4 → decode p (.udp c q) = .tftpShort c q) ∧
    ∀ (o1 o0 b2 b3 : Byte) (rest : List Byte), q = o1 :: o0 :: b2 :: b3 :: rest →
      (o1.toNat * 256 + o0.toNat = 2 → decode p (.udp c q) = .tftpWrq c (b2 :: b3 :: rest)) ∧
      (o1.toNat * 256 + o0.toNat = 3 → decode p (.udp c q) = .tftpData c b2 b3 rest) ∧
      (o1.toNat * 256 + o0.toNat ≠ 2 → o1.toNat * 256 + o0.toNat ≠ 3 →
        decode p (.udp c q) = .tftpOther c (BitVec.ofNat 16 (o1.toNat * 256 + o0.toNat)) (b2 :: b3 :: rest))

/-- The operation a received byte selects (R77). -/
def Obligations.ByteSelectsOperation : Prop :=
  ∀ (p : Params) (c : Session) (b : Byte),
    (b = 0x03 → decode p (.tcpb c b) = .tbyteEtx c) ∧
    (0x61 ≤ b.toNat → b.toNat ≤ 0x7A → decode p (.tcpb c b) = .tbyteLower c b) ∧
    (b = 0x0A → decode p (.tcpb c b) = .tbyteLf c) ∧
    (b = 0x7F → decode p (.tcpb c b) = .tbyteDel c) ∧
    (b ≠ 0x03 → (b.toNat < 0x61 ∨ 0x7A < b.toNat) → b ≠ 0x0A → b ≠ 0x7F →
      decode p (.tcpb c b) = .tbytePass c b)

/-- The opcode table, read by its masks and priorities, decodes every word as the range tests do (R84), under the default
parameters, whose bit patterns the table lists (log entry 2). That a word of 16 bits stands for a datagram of four bytes, so
that the row of `TFTP.SHORT`, selected by the length, never applies and is left out, is log entry 17. -/
def Obligations.TableDecodesAsRanges : Prop :=
  (∀ w : Nat, w < 2 ^ 17 →
    (decodeTableWord 17 w).map Instr.mnemonic = (selectRow busRows w).map TableRow.op) ∧
  (∀ w : Nat, w < 2 ^ 16 →
    (decodeTableWord 16 w).map Instr.mnemonic = (selectRow udpRows w).map TableRow.op) ∧
  (∀ w : Nat, w < 2 ^ 8 →
    (decodeTableWord 8 w).map Instr.mnemonic = (selectRow byteRows w).map TableRow.op)

/-- Seven bus words, one opcode word and two stream bytes, written out from the table's rows, decode to the operations they
stand for (R84; default parameters, log entry 2). What a word leaves out is zero by log entry 17: the data byte 0x00, the
body [0x00, 0x00] and the session 0. -/
def Obligations.SpecWordsDecode : Prop :=
  decodeTableWord 17 0x01234 = some (.rdRam 0x1234) ∧
  decodeTableWord 17 0x14FFF = some (.wrRam 0x4FFF 0x00) ∧
  decodeTableWord 17 0x0E123 = some (.rdAlias 0x123) ∧
  decodeTableWord 17 0x0D010 = some .rdKbd ∧
  decodeTableWord 17 0x1D012 = some (.wrDsp 0x00) ∧
  decodeTableWord 17 0x0FF10 = some (.rdRom 0x10) ∧
  decodeTableWord 17 0x18000 = some (.wrNone 0x8000 0x00) ∧
  decodeTableWord 16 0x0002 = some (.tftpWrq 0 [0x00, 0x00]) ∧
  decodeTableWord 8 0x03 = some (.tbyteEtx 0) ∧
  decodeTableWord 8 0x7A = some (.tbyteLower 0 0x7A)

/-- The internal operations are not reachable from outside except through the operations that call them (R75): no stimulus
selects one, and what an operation that makes a call does is the call on the state that it has reached. -/
def Obligations.InternalOperationsOnlyCalled : Prop :=
  (∀ (p : Params) (st : Stimulus), (decode p st).format = st.format ∧ (decode p st).format ≠ .call) ∧
  (∀ (p : Params) (c : Call), (decodeCall c).format = .call ∧ encode p (decodeCall c) = .call c) ∧
  ∀ (s : State) (c : Session) (b : Byte),
    exec (.wrDsp b) s = exec (.putc (b ^^^ 0x80)) { s with dsp := b } ∧
    exec (.tbyteLower c b) s = exec (.deposit (b ^^^ 0x20)) s ∧ exec (.tbyteLf c) s = exec (.deposit 0x0D) s ∧
    exec (.tbyteDel c) s = exec (.deposit 0x5F) s ∧ exec (.tbytePass c b) s = exec (.deposit b) s ∧
    exec (.tbyteEtx c) s = exec .reset s ∧
    exec .poweron s = exec .reset { s with
      kbd := 0x00, kbdcr := 0x00, dsp := 0x00, dspcr := 0x00, vis := false, dis := false, col := 0, row := 0,
      tcur := 0x0000 } ∧
    ∃ t : State, exec .cls { s with ram := Memory.filled } = .next t ∧
      exec .reset s = .next { t with out := t.out ++ [.cpuReset] }

/-! ## A step -/

/-- A step executes the operation that the next stimulus decodes to, on the state with that stimulus taken (R51, R52); with
none waiting nothing changes. The inbox is the model's (log entry 7). -/
def Obligations.StepRunsDecoded : Prop :=
  ∀ s : State,
    (s.inbox = [] → step s = .next s) ∧
    ∀ (st : Stimulus) (rest : List Stimulus), s.inbox = st :: rest →
      step s = exec (decode s.params st) { s with inbox := rest }

/-- A word of the table placed for the next step is the operation that step executes (log entries 16 and 17). -/
def Obligations.FetchWordRunsNext : Prop :=
  ∀ (s : State) (nbits w : Nat) (st : Stimulus), wordStimulus nbits w = some st →
    step (s.withFetchWord nbits w) = exec (decode s.params st) s

/-! ## The bus -/

/-- `RD.RAM` (R102): the addresses below 0x5000 read their cell, with no side effect. -/
def Obligations.RamReadResult : Prop :=
  ∀ (i : RamIndex) (s : State),
    (∀ a : Addr, a.toNat = i.val → decode s.params (.bus (.rd a)) = .rdRam i) ∧
    exec (.rdRam i) s = .next { s with replies := s.replies ++ [s.ram.read i.val] }

/-- `WR.RAM` (R103): its cell, no other cell and no other state; both views of the cell read the new byte. -/
def Obligations.RamWriteResult : Prop :=
  ∀ (i : RamIndex) (v : Byte) (s : State),
    (∀ a : Addr, a.toNat = i.val → decode s.params (.bus (.wr a v)) = .wrRam i v) ∧
    ∃ t : State, exec (.wrRam i v) s = .next t ∧ { t with ram := s.ram } = s ∧
    (∀ j : Nat, t.ram.read j = if j = i.val then v else s.ram.read j) ∧
    exec (.rdRam i) t = .next { t with replies := t.replies ++ [v] } ∧
    (∀ off : Fin 0x1000, s.params.aliasTarget + off.val = i.val →
      exec (.rdAlias off) t = .next { t with replies := t.replies ++ [v] })

/-- `RD.ALIAS` and `WR.ALIAS` (R104, R105): the RAM cell `a - ALIAS_BASE + ALIAS_TARGET`, which is inside RAM, read and
written as by `RD.RAM` and `WR.RAM`. -/
def Obligations.AliasWindowResult : Prop :=
  ∀ (off : Fin 0x1000) (v : Byte) (s : State),
    (∀ a : Addr, a.toNat = s.params.aliasBase + off.val →
      decode s.params (.bus (.rd a)) = .rdAlias off ∧ decode s.params (.bus (.wr a v)) = .wrAlias off v) ∧
    s.params.aliasTarget + off.val < 0x5000 ∧
    exec (.rdAlias off) s = .next { s with replies := s.replies ++ [s.ram.read (s.params.aliasTarget + off.val)] } ∧
    ∃ t : State, exec (.wrAlias off v) s = .next t ∧ { t with ram := s.ram } = s ∧
      (∀ j : Nat, t.ram.read j = if j = s.params.aliasTarget + off.val then v else s.ram.read j) ∧
      exec (.rdAlias off) t = .next { t with replies := t.replies ++ [v] } ∧
      (∀ i : RamIndex, i.val = s.params.aliasTarget + off.val →
        exec (.rdRam i) t = .next { t with replies := t.replies ++ [v] } ∧
        exec (.wrRam i v) s = .next t)

/-- `read(a) == read(alias(a))` on the bus, and writes are symmetric (R46): a transaction at an address of the window is the
transaction at the RAM address behind it. -/
def Obligations.AliasTransactionIsRamTransaction : Prop :=
  ∀ (s : State) (a r : Addr) (v : Byte), s.params.aliasBase ≤ a.toNat → a.toNat < s.params.aliasBase + 0x1000 →
    r.toNat = a.toNat - s.params.aliasBase + s.params.aliasTarget →
    exec (decode s.params (.bus (.rd a))) s = exec (decode s.params (.bus (.rd r))) s ∧
    exec (decode s.params (.bus (.wr a v))) s = exec (decode s.params (.bus (.wr r v))) s

/-- `RD.ROM` and `WR.ROM` (R106, R107): the constant byte, the same after any sequence of operations; writes are
ignored. -/
def Obligations.RomWindowResult : Prop :=
  ∀ (i : Fin 256) (v : Byte) (s : State),
    (∀ a : Addr, a.toNat = 0xFF00 + i.val →
      decode s.params (.bus (.rd a)) = .rdRom i ∧ decode s.params (.bus (.wr a v)) = .wrRom i v) ∧
    exec (.rdRom i) s = .next { s with replies := s.replies ++ [s.params.rom[i.val]] } ∧
    exec (.wrRom i v) s = .next s ∧
    ∀ (js : List Instr) (t : State), execAll js s = .next t →
      exec (.rdRom i) t = .next { t with replies := t.replies ++ [s.params.rom[i.val]] }

/-- `RD.NONE` and `WR.NONE` (R108, R109): in every state, whatever was written before. -/
def Obligations.UnmappedResult : Prop :=
  ∀ (a : Addr) (v : Byte) (s : State),
    (0x5000 ≤ a.toNat → (a.toNat < s.params.aliasBase ∨ s.params.aliasBase + 0x1000 ≤ a.toNat) →
      (a.toNat < s.params.ioBase ∨ s.params.ioBase + 16 ≤ a.toNat) → a.toNat < 0xFF00 →
      decode s.params (.bus (.rd a)) = .rdNone a ∧ decode s.params (.bus (.wr a v)) = .wrNone a v) ∧
    exec (.rdNone a) s = .next { s with replies := s.replies ++ [0xFF] } ∧ exec (.wrNone a v) s = .next s

/-- An `RD` on the bus completes, answers one byte, and changes nothing but that port, except that sub-offset 0 clears
`KBDCR` (R110 (a), (c); R45); the draw counter, the model's own, moves inside the I/O window from sub-offset 2 on only. -/
def Obligations.BusReadReach : Prop :=
  ∀ (s : State) (a : Addr), ∃ (t : State) (b : Byte),
    exec (decode s.params (.bus (.rd a))) s = .next t ∧ t.replies = s.replies ++ [b] ∧
    { t with replies := s.replies, kbdcr := s.kbdcr, draws := s.draws } = s ∧
    (a.toNat = s.params.ioBase → t.kbdcr = 0x00) ∧
    (a.toNat ≠ s.params.ioBase → t.kbdcr = s.kbdcr) ∧
    ((a.toNat < s.params.ioBase + 2 ∨ s.params.ioBase + 16 ≤ a.toNat) → t.draws = s.draws)

/-- A `WR` on the bus completes and changes at most the RAM cell its address names and nothing else, except at the display
register, where it changes `DSP` and the terminal and no RAM cell (R110 (a), (b)). -/
def Obligations.BusWriteReach : Prop :=
  ∀ (s : State) (a : Addr) (v : Byte), ∃ t : State,
    exec (decode s.params (.bus (.wr a v))) s = .next t ∧
    (a.toNat ≠ s.params.ioBase + 2 →
      { t with ram := s.ram } = s ∧
      ∀ j : Nat, t.ram.read j =
        if (busCell s.params a).map (fun i => i.val) = some j then v else s.ram.read j) ∧
    (a.toNat = s.params.ioBase + 2 →
      t.dsp = v ∧
      { t with dsp := s.dsp, cell := s.cell, col := s.col, row := s.row, dis := s.dis } = s)

/-! ## The keyboard and display registers -/

/-- `RD.KBD` (R121): the last key, whether or not one is pending, and the flag cleared. Which read clears the flag is
decision D27. -/
def Obligations.KeyboardReadResult : Prop :=
  ∀ s : State, exec .rdKbd s = .next { s with kbdcr := 0x00, replies := s.replies ++ [s.kbd] }

/-- `RD.KBDCR` and `RD.DSPCR` (R122, R124): the register, with no side effect. Their sub-offsets are decision D7. -/
def Obligations.ControlReadResult : Prop :=
  ∀ s : State,
    exec .rdKbdcr s = .next { s with replies := s.replies ++ [s.kbdcr] } ∧
    exec .rdDspcr s = .next { s with replies := s.replies ++ [s.dspcr] }

/-- `RD.DSP` (R123) in each mode of `DSP_READBACK` (decision D8): a free byte, the register, or zero. -/
def Obligations.DisplayReadResult : Prop :=
  ∀ s : State,
    (s.params.dspReadback = .any →
      ∃ b : Byte, exec .rdDsp s = .next { s with replies := s.replies ++ [b], draws := s.draws + 1 }) ∧
    (s.params.dspReadback = .stored → exec .rdDsp s = .next { s with replies := s.replies ++ [s.dsp] }) ∧
    (s.params.dspReadback = .zero → exec .rdDsp s = .next { s with replies := s.replies ++ [0x00] })

/-- `RD.IOX` answers a free byte (decision D11) and `WR.IOX` is discarded (decision D10) (R128, R126). -/
def Obligations.UnregisteredIoResult : Prop :=
  ∀ (sub : Fin 16) (v : Byte) (s : State),
    (∃ b : Byte, exec (.rdIox sub) s = .next { s with replies := s.replies ++ [b], draws := s.draws + 1 }) ∧
    exec (.wrIox sub v) s = .next s

/-- `WR.DSP` (R125): `DSP` keeps the byte as written (decision D9), and the byte with its top bit inverted is put out; only
`DSP` and the terminal change. -/
def Obligations.DisplayWriteResult : Prop :=
  ∀ (v : Byte) (s : State), ∃ t : State,
    exec (.wrDsp v) s = .next t ∧ exec (.putc (v ^^^ 0x80)) { s with dsp := v } = .next t ∧ t.dsp = v ∧
    { t with dsp := s.dsp, cell := s.cell, col := s.col, row := s.row, dis := s.dis } = s

/-- `DEPOSIT` (R127): the byte with its top bit set, the flag set, nothing else, whatever key was unread before; a byte with
bit 7 set is stored as it is, and a byte and the byte with bit 7 set are indistinguishable afterwards. -/
def Obligations.DepositResult : Prop :=
  ∀ (b : Byte) (s : State),
    exec (.deposit b) s = .next { s with kbd := b ||| 0x80, kbdcr := 0xFF } ∧
    exec (.deposit (b ||| 0x80)) s = exec (.deposit b) s ∧
    (b.getLsbD 7 = true → b ||| 0x80 = b) ∧
    ∀ b' : Byte, exec (.deposit b') { s with kbd := b ||| 0x80, kbdcr := 0xFF } = exec (.deposit b') s

/-- The one-slot mailbox seen from outside (R129, vector L1-9): of two received bytes, neither of them 0x03, only the second
is read, its flag found set before and clear after. -/
def Obligations.MailboxKeepsLastKey : Prop :=
  ∀ (s : State) (c c' : Session) (a b : Byte) (k k' : Addr) (rest : List Stimulus),
    a ≠ 0x03 → b ≠ 0x03 → k.toNat = s.params.ioBase → k'.toNat = s.params.ioBase + 1 →
    s.inbox = .tcpb c a :: .tcpb c' b :: .bus (.rd k') :: .bus (.rd k) :: .bus (.rd k') :: rest →
    ∃ t : State, Host.Core.run Sys2Proof.core 5 s = .next t ∧
      t.replies = s.replies ++ [0xFF, telnetFilter b ||| 0x80, 0x00] ∧
      { t with kbd := s.kbd, kbdcr := s.kbdcr, replies := s.replies, inbox := s.inbox } = s

/-! ## The terminal -/

/-- `PUTC` (R140, R141) from the state before it: the pending wrap, CR or LF take one new line, which scrolls on the last
row; a printable byte is then stored, masked to six bits, and the column advanced. A byte that is not printable still takes
a pending wrap (decision D28). Nothing outside the terminal changes, and not the blink phase. -/
def Obligations.PutcResult : Prop :=
  ∀ (b : Byte) (s : State), ∃ t : State,
    exec (.putc b) s = .next t ∧
    { t with cell := s.cell, col := s.col, row := s.row, dis := s.dis } = s ∧ t.dis = false ∧
    ∀ (row1 col1 : Nat) (cell1 : Fin 24 → Fin 40 → Code),
      row1 = (if s.col.val = 40 ∨ b = 0x0D ∨ b = 0x0A then min (s.row.val + 1) 23 else s.row.val) →
      col1 = (if s.col.val = 40 ∨ b = 0x0D ∨ b = 0x0A then 0 else s.col.val) →
      (∀ r c, cell1 r c =
        if (s.col.val = 40 ∨ b = 0x0D ∨ b = 0x0A) ∧ s.row.val = 23 then
          if h : r.val < 23 then s.cell.code ⟨r.val + 1, by omega⟩ c else 0x20
        else s.cell.code r c) →
      t.row.val = row1 ∧
      (0x20 ≤ b.toNat ∧ b.toNat ≤ 0x7E → t.col.val = col1 + 1 ∧ ∀ r c, t.cell.code r c =
        if r.val = row1 ∧ c.val = col1 then (b &&& 0x3F).setWidth 6 else cell1 r c) ∧
      (¬ (0x20 ≤ b.toNat ∧ b.toNat ≤ 0x7E) → t.col.val = col1 ∧ ∀ r c, t.cell.code r c = cell1 r c)

/-- At most forty printable bytes from column 0 fill that many cells of the row, in order, and nothing else of the grid;
the row does not advance (R148 (a)). -/
def Obligations.PrintedRow : Prop :=
  ∀ (s : State) (bs : List Byte), bs.length ≤ 40 → (∀ b ∈ bs, isPrintable b = true) → s.col.val = 0 →
    ∃ t : State, execAll (bs.map .putc) s = .next t ∧ t.row = s.row ∧ t.col.val = bs.length ∧
      (∀ (c : Fin 40) (h : c.val < bs.length), t.cell.code s.row c = (bs[c.val] &&& 0x3F).setWidth 6) ∧
      (∀ (r : Fin 24) (c : Fin 40), (r ≠ s.row ∨ bs.length ≤ c.val) → t.cell.code r c = s.cell.code r c)

/-- One more printable byte after a full row (R148 (b)): it stands at column 0 of the next row, and on the last row the grid
scrolls first and the rest of row 23 is blank. -/
def Obligations.WrapAfterFullRow : Prop :=
  ∀ (b : Byte) (s : State), isPrintable b = true → s.col.val = 40 →
    ∃ t : State, exec (.putc b) s = .next t ∧ t.col.val = 1 ∧
      (∀ hr : s.row.val < 23, t.row.val = s.row.val + 1 ∧ ∀ r c, t.cell.code r c =
        if r.val = s.row.val + 1 ∧ c.val = 0 then (b &&& 0x3F).setWidth 6 else s.cell.code r c) ∧
      (s.row.val = 23 → t.row.val = 23 ∧ ∀ r c, t.cell.code r c =
        if h : r.val < 23 then s.cell.code ⟨r.val + 1, by omega⟩ c
        else if c.val = 0 then (b &&& 0x3F).setWidth 6 else 0x20)

/-- CR and LF have identical effects in every state (R148 (c)); a byte that is neither of them nor printable changes
nothing but the inhibit, at a column inside the grid (R148 (d)). -/
def Obligations.NewLineAndIgnoredBytes : Prop :=
  ∀ s : State,
    exec (.putc 0x0D) s = exec (.putc 0x0A) s ∧
    ∀ b : Byte, isPrintable b = false → b ≠ 0x0D → b ≠ 0x0A → s.col.val ≤ 39 →
      exec (.putc b) s = .next { s with dis := false }

/-- How many scrolls a sequence of writes causes, and where it takes the cursor, depends on the classes of the bytes and the
starting cursor, never on the cells (R148 (f)). A write that scrolls moves every row up by one, one that does not changes at
most the cell it stores in. -/
def Obligations.ScrollsFollowByteClasses : Prop :=
  (∀ (s s' : State) (bs bs' : List Byte), s.col = s'.col → s.row = s'.row → bs.map putcClass = bs'.map putcClass →
    scrollCount bs s = scrollCount bs' s' ∧
    ∃ t t' : State, execAll (bs.map .putc) s = .next t ∧ execAll (bs'.map .putc) s' = .next t' ∧
      t.col = t'.col ∧ t.row = t'.row) ∧
  ∀ (s : State) (b : Byte), ∃ t : State, exec (.putc b) s = .next t ∧
    (s.scrollsOn b = true → ∀ (r : Fin 24) (c : Fin 40) (h : r.val < 23),
      t.cell.code r c = s.cell.code ⟨r.val + 1, by omega⟩ c) ∧
    (s.scrollsOn b = false → ∀ (r : Fin 24) (c : Fin 40), ¬ (r = t.row ∧ c.val + 1 = t.col.val) →
      t.cell.code r c = s.cell.code r c)

/-- `BLINK` (R143): the phase flips whatever the inhibit is; that nothing else changes rests on decision D14. -/
def Obligations.BlinkResult : Prop :=
  ∀ s : State, exec .blink s = .next { s with vis := !s.vis }

/-- `SETCUR` (R144): the column clamped to 39; with `y` out of range the column forced to 23 and the row kept (decision
D16). -/
def Obligations.SetcurResult : Prop :=
  ∀ (x y : Byte) (s : State), ∃ t : State,
    exec (.setcur x y) s = .next t ∧ { t with col := s.col, row := s.row } = s ∧
    (y.toNat < 24 → t.col.val = min x.toNat 39 ∧ t.row.val = y.toNat) ∧
    (24 ≤ y.toNat → t.col.val = 23 ∧ t.row = s.row)

/-- `CLS` (R145, its net effect): every cell the blank 0x20 (decision D13), the cursor at (0, 0), nothing else. -/
def Obligations.ClsResult : Prop :=
  ∀ s : State, ∃ t : State,
    exec .cls s = .next t ∧ { t with cell := s.cell, col := s.col, row := s.row, dis := s.dis } = s ∧
    (∀ r c, t.cell.code r c = 0x20) ∧ t.col.val = 0 ∧ t.row.val = 0 ∧ t.dis = false

/-- The pseudocode of `CLS` (R145): 960 blanks through `PUTC`, then `SETCUR 0, 0`, from every cursor position and every grid,
leave exactly what the model's direct clearing leaves (decision D17, log entry 12). -/
def Obligations.ClsIsNineHundredSixtyBlanks : Prop :=
  ∀ s : State, execAll (List.replicate 960 (.putc 0x20) ++ [.setcur 0x00 0x00]) s = exec .cls s

/-- What the display shows (R146): the glyph at a lit cursor, the stored code elsewhere (decision D14); no cursor at column
40 (decision D15). -/
def Obligations.ViewRule : Prop :=
  ∀ (s : State) (r : Fin 24) (c : Fin 40),
    (s.vis = true ∧ s.dis = false ∧ r = s.row ∧ c.val = s.col.val → s.view r c = s.params.cursorGlyph) ∧
    (¬ (s.vis = true ∧ s.dis = false ∧ r = s.row ∧ c.val = s.col.val) → s.view r c = s.cell.code r c) ∧
    (s.col.val = 40 → s.view r c = s.cell.code r c)

/-! ## The loader -/

/-- `TFTP.SHORT` and `TFTP.OTHER` (R170, R173): no state change and no output. -/
def Obligations.IgnoredDatagramResult : Prop :=
  ∀ (s : State) (c : Session),
    (∀ q : List Byte, exec (.tftpShort c q) s = .next s ∧
      (q.length < 4 → exec (decode s.params (.udp c q)) s = .next s)) ∧
    (∀ (op : BitVec 16) (body : List Byte), exec (.tftpOther c op body) s = .next s) ∧
    (∀ (o1 o0 b2 b3 : Byte) (rest : List Byte), ¬ (o1 = 0x00 ∧ o0 = 0x02) → ¬ (o1 = 0x00 ∧ o0 = 0x03) →
      exec (decode s.params (.udp c (o1 :: o0 :: b2 :: b3 :: rest))) s = .next s)

/-- `TFTP.WRQ` (R171): the transfer cursor is the load pointer, low byte at 0x26, translated if it lies in the alias window
and kept as it is otherwise (decision D20); nothing else changes and nothing is emitted. -/
def Obligations.WriteRequestResult : Prop :=
  ∀ (c : Session) (body : List Byte) (s : State), ∃ t : State,
    exec (.tftpWrq c body) s = .next t ∧ { t with tcur := s.tcur } = s ∧
    ∀ ptr : Nat, ptr = (s.ram.read 0x26).toNat + 256 * (s.ram.read 0x27).toNat →
      (s.params.aliasBase ≤ ptr ∧ ptr < s.params.aliasBase + 0x1000 →
        t.tcur.toNat = ptr - s.params.aliasBase + s.params.aliasTarget) ∧
      (¬ (s.params.aliasBase ≤ ptr ∧ ptr < s.params.aliasBase + 0x1000) → t.tcur.toNat = ptr)

/-- `TFTP.DATA` that fits (R172): the payload at the cursor, the cursor advanced, the acknowledgment with the block number
verbatim to the sender (decision D26); no other RAM byte and nothing else changes. -/
def Obligations.DataPacketResult : Prop :=
  ∀ (c : Session) (hi lo : Byte) (payload : List Byte) (s : State),
    (payload.length = 0 ∨ s.tcur.toNat + payload.length ≤ 0x5000) →
    ∃ t : State, exec (.tftpData c hi lo payload) s = .next t ∧
      { t with ram := s.ram, tcur := s.tcur, out := s.out } = s ∧
      (∀ j : Nat, t.ram.read j =
        if h : s.tcur.toNat ≤ j ∧ j < s.tcur.toNat + payload.length then payload[j - s.tcur.toNat]'(by omega)
        else s.ram.read j) ∧
      t.tcur.toNat = s.tcur.toNat + payload.length ∧
      t.out = s.out ++ [.udp c [0x00, 0x04, hi, lo]]

/-- `TFTP.DATA` past the end of RAM (R175, decision D19): the run stops with `TFTP_RANGE`. -/
def Obligations.DataPastRamStops : Prop :=
  ∀ (c : Session) (hi lo : Byte) (payload : List Byte) (s : State),
    0 < payload.length → 0x5000 < s.tcur.toNat + payload.length →
    exec (.tftpData c hi lo payload) s = .fault .tftpRange

/-- A write-request and a data packet, from whatever senders, put the payload where the two pointer bytes say, an address of
the alias window translated once (R171, R172, vector L1-8; decisions D19, D20, D26). -/
def Obligations.LoadLandsAtPointer : Prop :=
  ∀ (s : State) (c c' : Session) (b2 b3 hi lo : Byte) (body payload : List Byte) (rest : List Stimulus) (ptr dest : Nat),
    ptr = (s.ram.read 0x26).toNat + 256 * (s.ram.read 0x27).toNat →
    dest = (if s.params.aliasBase ≤ ptr ∧ ptr < s.params.aliasBase + 0x1000
      then ptr - s.params.aliasBase + s.params.aliasTarget else ptr) →
    dest + payload.length ≤ 0x5000 →
    s.inbox = .udp c (0x00 :: 0x02 :: b2 :: b3 :: body) :: .udp c' (0x00 :: 0x03 :: hi :: lo :: payload) :: rest →
    ∃ t : State, Host.Core.run Sys2Proof.core 2 s = .next t ∧
      (∀ j : Nat, t.ram.read j =
        if h : dest ≤ j ∧ j < dest + payload.length then payload[j - dest]'(by omega) else s.ram.read j) ∧
      t.tcur.toNat = dest + payload.length ∧ t.out = s.out ++ [.udp c' [0x00, 0x04, hi, lo]] ∧ t.inbox = rest

/-! ## Telnet -/

/-- `CONNECT` (R190): the 25 greeting bytes to the new connection (decision D26), the block's state unchanged. -/
def Obligations.ConnectResult : Prop :=
  ∀ (c : Session) (s : State),
    exec (.connect c) s = .next { s with out := s.out ++ [.tcp c
      [0x57, 0x65, 0x6C, 0x63, 0x6F, 0x6D, 0x65, 0x20, 0x74, 0x6F, 0x20, 0x45, 0x73, 0x70, 0x70, 0x6C, 0x65, 0x21, 0x0A,
       0xFF, 0xFD, 0x22, 0xFF, 0xFB, 0x01]] }

/-- The four classes of deposited byte (R193 to R196), from any connection. -/
def Obligations.ReceivedByteResult : Prop :=
  ∀ (c : Session) (b : Byte) (s : State),
    (0x61 ≤ b.toNat → b.toNat ≤ 0x7A → decode s.params (.tcpb c b) = .tbyteLower c b) ∧
    decode s.params (.tcpb c 0x0A) = .tbyteLf c ∧ decode s.params (.tcpb c 0x7F) = .tbyteDel c ∧
    (b ≠ 0x03 → (b.toNat < 0x61 ∨ 0x7A < b.toNat) → b ≠ 0x0A → b ≠ 0x7F →
      decode s.params (.tcpb c b) = .tbytePass c b) ∧
    exec (.tbyteLower c b) s = .next { s with kbd := (b ^^^ 0x20) ||| 0x80, kbdcr := 0xFF } ∧
    exec (.tbyteLf c) s = .next { s with kbd := 0x8D, kbdcr := 0xFF } ∧
    exec (.tbyteDel c) s = .next { s with kbd := 0xDF, kbdcr := 0xFF } ∧
    exec (.tbytePass c b) s = .next { s with kbd := b ||| 0x80, kbdcr := 0xFF }

/-- The filter on the stream (R191, its numbers from ASCII by decision D29): every byte but 0x03 becomes one key, filtered,
whichever connection it came on, and the filter is idempotent. -/
def Obligations.StreamByteBecomesFilteredKey : Prop :=
  ∀ (s : State) (c : Session) (b : Byte), b ≠ 0x03 →
    exec (decode s.params (.tcpb c b)) s = .next { s with kbd := telnetFilter b ||| 0x80, kbdcr := 0xFF } ∧
    telnetFilter (telnetFilter b) = telnetFilter b ∧
    (0x61 ≤ b.toNat ∧ b.toNat ≤ 0x7A → (telnetFilter b).toNat = b.toNat - 0x20) ∧
    (b = 0x0A → telnetFilter b = 0x0D) ∧ (b = 0x7F → telnetFilter b = 0x5F) ∧
    (¬ (0x61 ≤ b.toNat ∧ b.toNat ≤ 0x7A) → b ≠ 0x0A → b ≠ 0x7F → telnetFilter b = b)

/-- `TBYTE.ETX` (R192): the reset operation from any connection, no deposit: the mailbox is as before (decision D22). -/
def Obligations.EtxResult : Prop :=
  ∀ (c : Session) (s : State), ∃ t : State,
    exec (.tbyteEtx c) s = .next t ∧ exec .reset s = .next t ∧ t.kbd = s.kbd ∧ t.kbdcr = s.kbdcr ∧
    (∀ i : Nat, t.ram.read i = 0xFF) ∧ t.col.val = 0 ∧ t.row.val = 0 ∧ (∀ r c, t.cell.code r c = 0x20)

/-! ## The tick, reset and power-on -/

/-- `TICK` (R210): the state after a tick is the state after the bus transactions the CPU issued in it, run one by one with
nothing between them, whatever stimuli wait. A CPU that issues the transactions `ts` issues exactly those; one that issues
none changes nothing but its own plan. The plan is the model's (log entry 8). -/
def Obligations.TickRunsTransactions : Prop :=
  ∀ s : State,
    (∃ (ts : List BusTxn) (t : State), exec .tick s = .next t ∧ t.inbox = s.inbox ∧
      Host.Core.run Sys2Proof.core ts.length { s with inbox := ts.map .bus ++ s.inbox } = .next { t with cpu := s.cpu }) ∧
    ∀ (ts : List BusTxn) (rest : CpuPlan), s.cpu = ts.foldr CpuPlan.txn (.endTick rest) →
      ∃ t : State, exec .tick s = .next t ∧ t.inbox = s.inbox ∧ t.cpu = rest ∧
        Host.Core.run Sys2Proof.core ts.length { s with cpu := rest, inbox := ts.map .bus ++ s.inbox } = .next t

/-- How a tick follows the CPU's plan (R210): a transaction is performed and the tick goes on from the state after it, a
branch is taken by the byte the latest read returned, and the end of the batch keeps what the CPU does later. So after a read
the CPU goes on as the returned byte makes it go on. The plan is the model's (log entry 8). -/
def Obligations.TickFollowsPlan : Prop :=
  ∀ s : State,
    (s.cpu = .halt → exec .tick s = .next s) ∧
    (∀ next : CpuPlan, s.cpu = .endTick next → exec .tick s = .next { s with cpu := next }) ∧
    (∀ (x : BusTxn) (next : CpuPlan), s.cpu = .txn x next →
      ∃ u : State, exec (decode s.params (.bus x)) s = .next u ∧ exec .tick s = exec .tick { u with cpu := next }) ∧
    (∀ (b : Byte) (yes no : CpuPlan), s.cpu = .ifByte b yes no →
      exec .tick s = exec .tick { s with cpu := if s.replies.getLast? = some b then yes else no }) ∧
    ∀ (u : State) (a : Addr) (b v : Byte) (yes no : CpuPlan),
      s.cpu = .txn (.rd a) (.ifByte b yes no) → exec (decode s.params (.bus (.rd a))) s = .next u →
      u.replies = s.replies ++ [v] →
      exec .tick s = exec .tick { u with cpu := if v = b then yes else no }

/-- `RESET` (R250, R251): RAM all 0xFF, every cell blank, the cursor at (0, 0), the inhibit off, one `cpu_reset`; the PIA,
the blink phase and the transfer cursor are untouched (decisions D22, D30). -/
def Obligations.ResetResult : Prop :=
  ∀ s : State, ∃ t : State,
    exec .reset s = .next t ∧
    { t with ram := s.ram, cell := s.cell, col := s.col, row := s.row, dis := s.dis, out := s.out } = s ∧
    (∀ i : Nat, t.ram.read i = 0xFF) ∧ (∀ r c, t.cell.code r c = 0x20) ∧ t.col.val = 0 ∧ t.row.val = 0 ∧
    t.dis = false ∧ t.out = s.out ++ [.cpuReset]

/-- `POWERON` (R252, decision D21): from any state, every element of the block at its power-on value, and one
`cpu_reset`; the parameters, the ports and the environment are untouched. -/
def Obligations.PoweronResult : Prop :=
  ∀ s : State, ∃ t : State,
    exec .poweron s = .next t ∧
    t.kbd = 0x00 ∧ t.kbdcr = 0x00 ∧ t.dsp = 0x00 ∧ t.dspcr = 0x00 ∧ t.vis = false ∧ t.dis = false ∧
    t.col.val = 0 ∧ t.row.val = 0 ∧ t.tcur = 0x0000 ∧ (∀ i : Nat, t.ram.read i = 0xFF) ∧
    (∀ r c, t.cell.code r c = 0x20) ∧ t.out = s.out ++ [.cpuReset] ∧
    t.params = s.params ∧ t.replies = s.replies ∧ t.draws = s.draws ∧ t.inbox = s.inbox ∧ t.cpu = s.cpu

/-- The state after reset is what power-on leaves (R252, 10_state.md section 8, decision D21), with one `cpu_reset` in the
output trace. -/
def Obligations.ResetStateValues : Prop :=
  (∀ i : Nat, State.reset.ram.read i = 0xFF) ∧ State.reset.kbd = 0x00 ∧ State.reset.kbdcr = 0x00 ∧
  State.reset.dsp = 0x00 ∧ State.reset.dspcr = 0x00 ∧ (∀ r c, State.reset.cell.code r c = 0x20) ∧
  State.reset.col.val = 0 ∧ State.reset.row.val = 0 ∧ State.reset.vis = false ∧ State.reset.dis = false ∧
  State.reset.tcur = 0x0000 ∧ State.reset.out = [.cpuReset]

/-! ## The whole machine -/

/-- The invariant of the event boundaries is kept by every step (R147, R129 (a), R16, R23). -/
def Obligations.StepKeepsInv : Prop :=
  ∀ s t : State, s.Inv → step s = .next t → t.Inv

/-- The state after reset meets the invariant. -/
def Obligations.ResetMeetsInv : Prop := State.reset.Inv

/-- No run changes the monitor ROM (R12), nor any other parameter. -/
def Obligations.RunsKeepRom : Prop :=
  ∀ (k : Nat) (s t : State), Host.Core.run Sys2Proof.core k s = .next t →
    t.params.rom = s.params.rom ∧ t.params = s.params

/-- No rule reads `INSTR_PER_TICK`, `TICK_PERIOD`, `BLINK_PERIOD` or `MAX_PAYLOAD` (R3): with other values of them every stimulus
selects the same operation, and every operation and every step ends alike, in the same next state but for them or in the same
stop. -/
def Obligations.UnreadParametersChangeNothing : Prop :=
  ∀ (s : State) (instr tick blink payload : Nat),
    (∀ st : Stimulus, decode (s.params.withUnread instr tick blink payload) st = decode s.params st) ∧
    (∀ i : Instr,
      (∀ t : State, exec i s = .next t →
        exec i (s.withUnread instr tick blink payload) = .next (t.withUnread instr tick blink payload)) ∧
      (∀ f : Fault, exec i s = .fault f → exec i (s.withUnread instr tick blink payload) = .fault f)) ∧
    (∀ t : State, step s = .next t →
      step (s.withUnread instr tick blink payload) = .next (t.withUnread instr tick blink payload)) ∧
    (∀ f : Fault, step s = .fault f → step (s.withUnread instr tick blink payload) = .fault f)

/-- Every operation completes in every state, but for a data packet past the end of RAM, which stops with `TFTP_RANGE`
(R220, R222; decision D19). -/
def Obligations.OnlyDataPacketStops : Prop :=
  ∀ (i : Instr) (s : State),
    (∃ t : State, exec i s = .next t) ∨
    (exec i s = .fault .tftpRange ∧ ∃ (c : Session) (hi lo : Byte) (payload : List Byte),
      i = .tftpData c hi lo payload ∧ 0 < payload.length ∧ 0x5000 < s.tcur.toNat + payload.length)

/-- A step is safe exactly when the stimulus it takes is no data packet past the end of RAM (R222, R260; decision D19). -/
def Obligations.SafeStepIff : Prop :=
  ∀ s : State, s.Safe ↔ ¬ ∃ (c : Session) (hi lo : Byte) (payload : List Byte) (rest : List Stimulus),
    s.inbox = .udp c (0x00 :: 0x03 :: hi :: lo :: payload) :: rest ∧
    0 < payload.length ∧ 0x5000 < s.tcur.toNat + payload.length

/-- Which operations write each element of R10 (10_state.md section 1, column "written by"; R14, R16, R22, R23, R24), and
the output trace: an element that differs after an operation is one the operation is named for. -/
def Obligations.OnlyNamedOperationsWrite : Prop :=
  ∀ (i : Instr) (s t : State), exec i s = .next t →
    (t.ram ≠ s.ram → i.mnemonic ∈ [.wrRam, .wrAlias, .tftpData, .tick, .tbyteEtx, .reset, .poweron]) ∧
    (t.kbd ≠ s.kbd → i.mnemonic ∈ [.deposit, .tbyteLower, .tbyteLf, .tbyteDel, .tbytePass, .poweron]) ∧
    (t.kbdcr ≠ s.kbdcr →
      i.mnemonic ∈ [.rdKbd, .tick, .deposit, .tbyteLower, .tbyteLf, .tbyteDel, .tbytePass, .poweron]) ∧
    (t.dsp ≠ s.dsp → i.mnemonic ∈ [.wrDsp, .tick, .poweron]) ∧
    (t.dspcr ≠ s.dspcr → i.mnemonic = .poweron) ∧
    (t.cell ≠ s.cell → i.mnemonic ∈ [.wrDsp, .putc, .tick, .cls, .tbyteEtx, .reset, .poweron]) ∧
    ((t.col ≠ s.col ∨ t.row ≠ s.row) →
      i.mnemonic ∈ [.wrDsp, .putc, .tick, .setcur, .cls, .tbyteEtx, .reset, .poweron]) ∧
    (t.vis ≠ s.vis → i.mnemonic ∈ [.blink, .poweron]) ∧
    (t.dis ≠ s.dis → i.mnemonic ∈ [.wrDsp, .putc, .tick, .cls, .tbyteEtx, .reset, .poweron]) ∧
    (t.tcur ≠ s.tcur → i.mnemonic ∈ [.tftpWrq, .tftpData, .poweron]) ∧
    (t.out ≠ s.out → i.mnemonic ∈ [.tftpData, .connect, .tbyteEtx, .reset, .poweron])

/-- Ownership by agent (R228): the CPU has no path to `KBD` but to read it, nor to `DSPCR`, `vis`, `tcur` or the network;
the UDP agent touches RAM, `tcur` and its replies alone; the Telnet agent touches no display register, phase or transfer
cursor, and RAM only by resetting it; the blink timer flips the phase alone. -/
def Obligations.AgentsOwnTheirState : Prop :=
  ∀ (i : Instr) (s t : State), exec i s = .next t →
    (i.format = .bus ∨ i = .tick →
      t.kbd = s.kbd ∧ t.dspcr = s.dspcr ∧ t.vis = s.vis ∧ t.tcur = s.tcur ∧ t.out = s.out) ∧
    (i.format = .udp → { t with ram := s.ram, tcur := s.tcur, out := s.out } = s) ∧
    (i.format = .tcpb ∨ i.format = .tcpc →
      t.dsp = s.dsp ∧ t.dspcr = s.dspcr ∧ t.vis = s.vis ∧ t.tcur = s.tcur ∧ t.replies = s.replies ∧
      (t.ram = s.ram ∨ (i.mnemonic = .tbyteEtx ∧ ∀ j : Nat, t.ram.read j = 0xFF)) ∧
      (t.cell = s.cell ∨ (i.mnemonic = .tbyteEtx ∧ ∀ r c, t.cell.code r c = 0x20))) ∧
    (i = .blink → { t with vis := s.vis } = s)

/-- The CPU cannot learn the grid, the cursor, the blink phase or the transfer cursor (R25, R228): two states that agree on
what the CPU has a path to agree on it after any bus transaction, the returned byte included, and, if they agree on what the
CPU does next, after a tick too, on what the CPU goes on to do as well. -/
def Obligations.CpuCannotReadTerminalOrCursor : Prop :=
  ∀ s s' : State, s.cpuView = s'.cpuView →
    (∀ x : BusTxn, ∃ t t' : State, exec (decode s.params (.bus x)) s = .next t ∧
      exec (decode s'.params (.bus x)) s' = .next t' ∧ t.cpuView = t'.cpuView) ∧
    (s.cpu = s'.cpu →
      ∃ t t' : State, exec .tick s = .next t ∧ exec .tick s' = .next t' ∧ t.cpuView = t'.cpuView ∧ t.cpu = t'.cpu)
end

