-- ==== Sys2Proof/Laws/Grid.lean ====
section
/-! SUPPORT. The laws of the character grid: what one cell holds after each of its operations. -/

namespace Sys2Proof.Machine

@[simp] theorem blankRow_code (c : Fin 40) : blankRow[c.val] = blankCode := by simp [blankRow]

@[simp] theorem Grid.code_blank (r : Fin 24) (c : Fin 40) : Grid.blank.code r c = blankCode := by
  simp [Grid.code, Grid.blank]

/-- A store changes its own cell and no other. -/
theorem Grid.code_put (g : Grid) (r r' : Fin 24) (c c' : Fin 40) (v : Code) :
    (g.put r c v).code r' c' = if r' = r ∧ c' = c then v else g.code r' c' := by
  unfold Grid.code Grid.put
  by_cases hr : r' = r
  · subst hr
    by_cases hc : c' = c
    · subst hc
      simp
    · have : c.val ≠ c'.val := fun h => hc (Fin.ext h.symm)
      simp [this, hc]
  · have : r.val ≠ r'.val := fun h => hr (Fin.ext h.symm)
    simp [this, hr]

/-- A scroll moves every row up by one and blanks the last (42_terminal.md R141). -/
theorem Grid.code_scroll (g : Grid) (r : Fin 24) (c : Fin 40) :
    g.scroll.code r c = if h : r.val < 23 then g.code ⟨r.val + 1, by omega⟩ c else blankCode := by
  unfold Grid.code Grid.scroll
  by_cases h : r.val < 23
  · rw [dif_pos h]
    simp [h]
  · have hr : r.val = 23 := by omega
    rw [dif_neg h]
    simp [hr]

/-- Grids with the same cells are the same grid. -/
theorem Grid.ext_code {g g' : Grid} (h : ∀ r c, g.code r c = g'.code r c) : g = g' := by
  apply Vector.ext
  intro r hr
  apply Vector.ext
  intro c hc
  exact h ⟨r, hr⟩ ⟨c, hc⟩

end Sys2Proof.Machine
end

