-- ==== Sys2Proof/Laws/Memory.lean ====
section
/-! SUPPORT. The laws of MemoryImage: a read after a write, on any list of cells, and the canonical form kept by every
operation. -/

namespace Sys2Proof.Machine

@[simp] theorem Memory.read_filled (i : Nat) : Memory.read Memory.filled i = ramFill := rfl

theorem Memory.read_erase (m : Memory) (i j : Nat) :
    (m.erase i).read j = if j = i then ramFill else m.read j := by
  induction m with
  | nil => simp [Memory.erase, Memory.read]
  | cons c m ih =>
    obtain ⟨k, b⟩ := c
    by_cases hik : i = k
    · subst hik
      rw [Memory.erase, if_pos rfl, ih, Memory.read]
      by_cases hj : j = i <;> simp [hj]
    · rw [Memory.erase, if_neg hik, Memory.read, Memory.read, ih]
      by_cases hjk : j = k
      · simp [hjk, Ne.symm hik]
      · simp [hjk]

theorem Memory.read_place (m : Memory) (i j : Nat) (v : Byte) (h : m.read i = ramFill ∧ ∀ c ∈ m, c.1 ≠ i) :
    (m.place i v).read j = if j = i then v else m.read j := by
  induction m with
  | nil => by_cases hj : j = i <;> simp [Memory.place, Memory.read, hj]
  | cons c m ih =>
    obtain ⟨k, b⟩ := c
    obtain ⟨h1, h2⟩ := h
    have hk : k ≠ i := h2 (k, b) (by simp)
    have ih' := ih ⟨by simpa [Memory.read, Ne.symm hk] using h1, fun c hc => h2 c (by simp [hc])⟩
    by_cases hlt : i < k
    · rw [Memory.place, if_pos hlt, Memory.read]
    · rw [Memory.place, if_neg hlt, Memory.read, Memory.read, ih']
      by_cases hjk : j = k
      · simp [hjk, hk]
      · simp [hjk]

theorem Memory.erase_keys (m : Memory) (i : Nat) : ∀ c ∈ m.erase i, c.1 ≠ i := by
  induction m with
  | nil => simp [Memory.erase]
  | cons c m ih =>
    obtain ⟨k, b⟩ := c
    by_cases hik : i = k
    · simpa [Memory.erase, hik] using by simpa [hik] using ih
    · intro c hc
      simp only [Memory.erase, if_neg hik, List.mem_cons] at hc
      rcases hc with rfl | hc
      · exact fun h => hik h.symm
      · exact ih c hc

/-- A read after a write: the byte at its own index, every other index as before. -/
theorem Memory.read_write (m : Memory) (i j : Nat) (v : Byte) :
    (m.write i v).read j = if j = i then v else m.read j := by
  unfold Memory.write
  split
  · next h => rw [Memory.read_erase, h]
  · rw [Memory.read_place _ _ _ _ ⟨by simp [Memory.read_erase], Memory.erase_keys m i⟩, Memory.read_erase]
    by_cases hj : j = i <;> simp [hj]

@[simp] theorem Memory.read_write_same (m : Memory) (i : Nat) (v : Byte) : (m.write i v).read i = v := by
  simp [Memory.read_write]

theorem Memory.read_write_other (m : Memory) {i j : Nat} (v : Byte) (h : j ≠ i) :
    (m.write i v).read j = m.read j := by simp [Memory.read_write, h]

/-- A read after a store of consecutive bytes: the byte stored there, every other index as before. -/
theorem Memory.read_store (m : Memory) (i j : Nat) (bs : List Byte) :
    (m.store i bs).read j = if h : i ≤ j ∧ j < i + bs.length then bs[j - i]'(by omega) else m.read j := by
  induction bs generalizing m i with
  | nil => rw [Memory.store, dif_neg (by simp)]
  | cons b bs ih =>
    rw [Memory.store, ih, Memory.read_write]
    by_cases hj : j = i
    · subst hj
      simp
    · by_cases hr : i + 1 ≤ j ∧ j < i + 1 + bs.length
      · obtain ⟨k, rfl⟩ : ∃ k, j = i + 1 + k := ⟨j - (i + 1), by omega⟩
        have h1 : i + 1 + k - i = k + 1 := by omega
        have h2 : i + 1 + k - (i + 1) = k := by omega
        rw [dif_pos hr, dif_pos ⟨by omega, by simp; omega⟩]
        simp only [h1, h2, List.getElem_cons_succ]
      · rw [dif_neg hr, dif_neg (by simp; omega), if_neg hj]

theorem Memory.wfFrom_mono {m : Memory} {lo lo' : Nat} (h : Memory.wfFrom lo m = true) (hl : lo' ≤ lo) :
    Memory.wfFrom lo' m = true := by
  cases m with
  | nil => rfl
  | cons c m =>
    obtain ⟨k, b⟩ := c
    simp only [Memory.wfFrom, Bool.and_eq_true, decide_eq_true_eq] at h ⊢
    exact ⟨⟨⟨by omega, h.1.1.2⟩, h.1.2⟩, h.2⟩

theorem Memory.wfFrom_erase {m : Memory} {lo : Nat} (i : Nat) (h : Memory.wfFrom lo m = true) :
    Memory.wfFrom lo (m.erase i) = true := by
  induction m generalizing lo with
  | nil => rfl
  | cons c m ih =>
    obtain ⟨k, b⟩ := c
    simp only [Memory.wfFrom, Bool.and_eq_true, decide_eq_true_eq] at h
    have ht := ih h.2
    by_cases hik : i = k
    · rw [Memory.erase, if_pos hik]
      exact Memory.wfFrom_mono ht (by omega)
    · rw [Memory.erase, if_neg hik]
      simp only [Memory.wfFrom, Bool.and_eq_true, decide_eq_true_eq]
      exact ⟨h.1, ht⟩

theorem Memory.wfFrom_place {m : Memory} {lo i : Nat} {v : Byte} (h : Memory.wfFrom lo m = true)
    (hi : ∀ c ∈ m, c.1 ≠ i) (hlo : lo ≤ i) (hr : i < 0x5000) (hv : v ≠ ramFill) :
    Memory.wfFrom lo (m.place i v) = true := by
  induction m generalizing lo with
  | nil => simp [Memory.place, Memory.wfFrom, hlo, hr, hv]
  | cons c m ih =>
    obtain ⟨k, b⟩ := c
    have hk : k ≠ i := hi (k, b) (by simp)
    simp only [Memory.wfFrom, Bool.and_eq_true, decide_eq_true_eq] at h
    by_cases hlt : i < k
    · rw [Memory.place, if_pos hlt]
      simp only [Memory.wfFrom, Bool.and_eq_true, decide_eq_true_eq]
      exact ⟨⟨⟨hlo, hr⟩, hv⟩, ⟨⟨by omega, h.1.1.2⟩, h.1.2⟩, h.2⟩
    · rw [Memory.place, if_neg hlt]
      simp only [Memory.wfFrom, Bool.and_eq_true, decide_eq_true_eq]
      exact ⟨h.1, ih h.2 (fun c hc => hi c (by simp [hc])) (by omega)⟩

@[simp] theorem Memory.wf_filled : Memory.filled.wf = true := rfl

/-- A write keeps the canonical form. -/
theorem Memory.wf_write {m : Memory} (h : m.wf = true) {i : Nat} (hi : i < 0x5000) (v : Byte) :
    (m.write i v).wf = true := by
  unfold Memory.write
  split
  · exact Memory.wfFrom_erase i h
  · next hv => exact Memory.wfFrom_place (Memory.wfFrom_erase i h) (Memory.erase_keys m i) (Nat.zero_le _) hi hv

/-- A store of consecutive bytes inside RAM keeps the canonical form. -/
theorem Memory.wf_store {m : Memory} (h : m.wf = true) {i : Nat} {bs : List Byte}
    (hi : bs.length = 0 ∨ i + bs.length ≤ 0x5000) : (m.store i bs).wf = true := by
  induction bs generalizing m i with
  | nil => exact h
  | cons b bs ih =>
    simp only [List.length_cons] at hi
    exact ih (Memory.wf_write h (by omega) b) (by omega)

end Sys2Proof.Machine
end

