-- ==== Sys2Proof/Laws/State.lean ====
section
/-! SUPPORT. One lemma per field per named update of the state, so that no later proof unfolds a record update. -/

namespace Sys2Proof.Machine

variable (s : State)

@[simp] theorem State.writeRam_params (i : RamIndex) (v : Byte) : (s.writeRam i v).params = s.params := rfl
@[simp] theorem State.writeRam_ram (i : RamIndex) (v : Byte) : (s.writeRam i v).ram = s.ram.write i.val v := rfl
@[simp] theorem State.writeRam_kbd (i : RamIndex) (v : Byte) : (s.writeRam i v).kbd = s.kbd := rfl
@[simp] theorem State.writeRam_kbdcr (i : RamIndex) (v : Byte) : (s.writeRam i v).kbdcr = s.kbdcr := rfl
@[simp] theorem State.writeRam_dsp (i : RamIndex) (v : Byte) : (s.writeRam i v).dsp = s.dsp := rfl
@[simp] theorem State.writeRam_dspcr (i : RamIndex) (v : Byte) : (s.writeRam i v).dspcr = s.dspcr := rfl
@[simp] theorem State.writeRam_cell (i : RamIndex) (v : Byte) : (s.writeRam i v).cell = s.cell := rfl
@[simp] theorem State.writeRam_col (i : RamIndex) (v : Byte) : (s.writeRam i v).col = s.col := rfl
@[simp] theorem State.writeRam_row (i : RamIndex) (v : Byte) : (s.writeRam i v).row = s.row := rfl
@[simp] theorem State.writeRam_vis (i : RamIndex) (v : Byte) : (s.writeRam i v).vis = s.vis := rfl
@[simp] theorem State.writeRam_dis (i : RamIndex) (v : Byte) : (s.writeRam i v).dis = s.dis := rfl
@[simp] theorem State.writeRam_tcur (i : RamIndex) (v : Byte) : (s.writeRam i v).tcur = s.tcur := rfl
@[simp] theorem State.writeRam_replies (i : RamIndex) (v : Byte) : (s.writeRam i v).replies = s.replies := rfl
@[simp] theorem State.writeRam_out (i : RamIndex) (v : Byte) : (s.writeRam i v).out = s.out := rfl
@[simp] theorem State.writeRam_draws (i : RamIndex) (v : Byte) : (s.writeRam i v).draws = s.draws := rfl
@[simp] theorem State.writeRam_inbox (i : RamIndex) (v : Byte) : (s.writeRam i v).inbox = s.inbox := rfl
@[simp] theorem State.writeRam_cpu (i : RamIndex) (v : Byte) : (s.writeRam i v).cpu = s.cpu := rfl

@[simp] theorem State.reply_params (b : Byte) : (s.reply b).params = s.params := rfl
@[simp] theorem State.reply_ram (b : Byte) : (s.reply b).ram = s.ram := rfl
@[simp] theorem State.reply_kbd (b : Byte) : (s.reply b).kbd = s.kbd := rfl
@[simp] theorem State.reply_kbdcr (b : Byte) : (s.reply b).kbdcr = s.kbdcr := rfl
@[simp] theorem State.reply_dsp (b : Byte) : (s.reply b).dsp = s.dsp := rfl
@[simp] theorem State.reply_dspcr (b : Byte) : (s.reply b).dspcr = s.dspcr := rfl
@[simp] theorem State.reply_cell (b : Byte) : (s.reply b).cell = s.cell := rfl
@[simp] theorem State.reply_col (b : Byte) : (s.reply b).col = s.col := rfl
@[simp] theorem State.reply_row (b : Byte) : (s.reply b).row = s.row := rfl
@[simp] theorem State.reply_vis (b : Byte) : (s.reply b).vis = s.vis := rfl
@[simp] theorem State.reply_dis (b : Byte) : (s.reply b).dis = s.dis := rfl
@[simp] theorem State.reply_tcur (b : Byte) : (s.reply b).tcur = s.tcur := rfl
@[simp] theorem State.reply_replies (b : Byte) : (s.reply b).replies = s.replies ++ [b] := rfl
@[simp] theorem State.reply_out (b : Byte) : (s.reply b).out = s.out := rfl
@[simp] theorem State.reply_draws (b : Byte) : (s.reply b).draws = s.draws := rfl
@[simp] theorem State.reply_inbox (b : Byte) : (s.reply b).inbox = s.inbox := rfl
@[simp] theorem State.reply_cpu (b : Byte) : (s.reply b).cpu = s.cpu := rfl

@[simp] theorem State.replyDraw_params : (s.replyDraw).params = s.params := rfl
@[simp] theorem State.replyDraw_ram : (s.replyDraw).ram = s.ram := rfl
@[simp] theorem State.replyDraw_kbd : (s.replyDraw).kbd = s.kbd := rfl
@[simp] theorem State.replyDraw_kbdcr : (s.replyDraw).kbdcr = s.kbdcr := rfl
@[simp] theorem State.replyDraw_dsp : (s.replyDraw).dsp = s.dsp := rfl
@[simp] theorem State.replyDraw_dspcr : (s.replyDraw).dspcr = s.dspcr := rfl
@[simp] theorem State.replyDraw_cell : (s.replyDraw).cell = s.cell := rfl
@[simp] theorem State.replyDraw_col : (s.replyDraw).col = s.col := rfl
@[simp] theorem State.replyDraw_row : (s.replyDraw).row = s.row := rfl
@[simp] theorem State.replyDraw_vis : (s.replyDraw).vis = s.vis := rfl
@[simp] theorem State.replyDraw_dis : (s.replyDraw).dis = s.dis := rfl
@[simp] theorem State.replyDraw_tcur : (s.replyDraw).tcur = s.tcur := rfl
@[simp] theorem State.replyDraw_replies : (s.replyDraw).replies = s.replies ++ [Config.draw s.draws] := rfl
@[simp] theorem State.replyDraw_out : (s.replyDraw).out = s.out := rfl
@[simp] theorem State.replyDraw_draws : (s.replyDraw).draws = s.draws + 1 := rfl
@[simp] theorem State.replyDraw_inbox : (s.replyDraw).inbox = s.inbox := rfl
@[simp] theorem State.replyDraw_cpu : (s.replyDraw).cpu = s.cpu := rfl

@[simp] theorem State.emit_params (o : Output) : (s.emit o).params = s.params := rfl
@[simp] theorem State.emit_ram (o : Output) : (s.emit o).ram = s.ram := rfl
@[simp] theorem State.emit_kbd (o : Output) : (s.emit o).kbd = s.kbd := rfl
@[simp] theorem State.emit_kbdcr (o : Output) : (s.emit o).kbdcr = s.kbdcr := rfl
@[simp] theorem State.emit_dsp (o : Output) : (s.emit o).dsp = s.dsp := rfl
@[simp] theorem State.emit_dspcr (o : Output) : (s.emit o).dspcr = s.dspcr := rfl
@[simp] theorem State.emit_cell (o : Output) : (s.emit o).cell = s.cell := rfl
@[simp] theorem State.emit_col (o : Output) : (s.emit o).col = s.col := rfl
@[simp] theorem State.emit_row (o : Output) : (s.emit o).row = s.row := rfl
@[simp] theorem State.emit_vis (o : Output) : (s.emit o).vis = s.vis := rfl
@[simp] theorem State.emit_dis (o : Output) : (s.emit o).dis = s.dis := rfl
@[simp] theorem State.emit_tcur (o : Output) : (s.emit o).tcur = s.tcur := rfl
@[simp] theorem State.emit_replies (o : Output) : (s.emit o).replies = s.replies := rfl
@[simp] theorem State.emit_out (o : Output) : (s.emit o).out = s.out ++ [o] := rfl
@[simp] theorem State.emit_draws (o : Output) : (s.emit o).draws = s.draws := rfl
@[simp] theorem State.emit_inbox (o : Output) : (s.emit o).inbox = s.inbox := rfl
@[simp] theorem State.emit_cpu (o : Output) : (s.emit o).cpu = s.cpu := rfl

@[simp] theorem State.takeKey_params : (s.takeKey).params = s.params := rfl
@[simp] theorem State.takeKey_ram : (s.takeKey).ram = s.ram := rfl
@[simp] theorem State.takeKey_kbd : (s.takeKey).kbd = s.kbd := rfl
@[simp] theorem State.takeKey_kbdcr : (s.takeKey).kbdcr = keyIdle := rfl
@[simp] theorem State.takeKey_dsp : (s.takeKey).dsp = s.dsp := rfl
@[simp] theorem State.takeKey_dspcr : (s.takeKey).dspcr = s.dspcr := rfl
@[simp] theorem State.takeKey_cell : (s.takeKey).cell = s.cell := rfl
@[simp] theorem State.takeKey_col : (s.takeKey).col = s.col := rfl
@[simp] theorem State.takeKey_row : (s.takeKey).row = s.row := rfl
@[simp] theorem State.takeKey_vis : (s.takeKey).vis = s.vis := rfl
@[simp] theorem State.takeKey_dis : (s.takeKey).dis = s.dis := rfl
@[simp] theorem State.takeKey_tcur : (s.takeKey).tcur = s.tcur := rfl
@[simp] theorem State.takeKey_replies : (s.takeKey).replies = s.replies := rfl
@[simp] theorem State.takeKey_out : (s.takeKey).out = s.out := rfl
@[simp] theorem State.takeKey_draws : (s.takeKey).draws = s.draws := rfl
@[simp] theorem State.takeKey_inbox : (s.takeKey).inbox = s.inbox := rfl
@[simp] theorem State.takeKey_cpu : (s.takeKey).cpu = s.cpu := rfl

@[simp] theorem State.putKey_params (b : Byte) : (s.putKey b).params = s.params := rfl
@[simp] theorem State.putKey_ram (b : Byte) : (s.putKey b).ram = s.ram := rfl
@[simp] theorem State.putKey_kbd (b : Byte) : (s.putKey b).kbd = b ||| topBit := rfl
@[simp] theorem State.putKey_kbdcr (b : Byte) : (s.putKey b).kbdcr = keyPending := rfl
@[simp] theorem State.putKey_dsp (b : Byte) : (s.putKey b).dsp = s.dsp := rfl
@[simp] theorem State.putKey_dspcr (b : Byte) : (s.putKey b).dspcr = s.dspcr := rfl
@[simp] theorem State.putKey_cell (b : Byte) : (s.putKey b).cell = s.cell := rfl
@[simp] theorem State.putKey_col (b : Byte) : (s.putKey b).col = s.col := rfl
@[simp] theorem State.putKey_row (b : Byte) : (s.putKey b).row = s.row := rfl
@[simp] theorem State.putKey_vis (b : Byte) : (s.putKey b).vis = s.vis := rfl
@[simp] theorem State.putKey_dis (b : Byte) : (s.putKey b).dis = s.dis := rfl
@[simp] theorem State.putKey_tcur (b : Byte) : (s.putKey b).tcur = s.tcur := rfl
@[simp] theorem State.putKey_replies (b : Byte) : (s.putKey b).replies = s.replies := rfl
@[simp] theorem State.putKey_out (b : Byte) : (s.putKey b).out = s.out := rfl
@[simp] theorem State.putKey_draws (b : Byte) : (s.putKey b).draws = s.draws := rfl
@[simp] theorem State.putKey_inbox (b : Byte) : (s.putKey b).inbox = s.inbox := rfl
@[simp] theorem State.putKey_cpu (b : Byte) : (s.putKey b).cpu = s.cpu := rfl

@[simp] theorem State.setDsp_params (v : Byte) : (s.setDsp v).params = s.params := rfl
@[simp] theorem State.setDsp_ram (v : Byte) : (s.setDsp v).ram = s.ram := rfl
@[simp] theorem State.setDsp_kbd (v : Byte) : (s.setDsp v).kbd = s.kbd := rfl
@[simp] theorem State.setDsp_kbdcr (v : Byte) : (s.setDsp v).kbdcr = s.kbdcr := rfl
@[simp] theorem State.setDsp_dsp (v : Byte) : (s.setDsp v).dsp = v := rfl
@[simp] theorem State.setDsp_dspcr (v : Byte) : (s.setDsp v).dspcr = s.dspcr := rfl
@[simp] theorem State.setDsp_cell (v : Byte) : (s.setDsp v).cell = s.cell := rfl
@[simp] theorem State.setDsp_col (v : Byte) : (s.setDsp v).col = s.col := rfl
@[simp] theorem State.setDsp_row (v : Byte) : (s.setDsp v).row = s.row := rfl
@[simp] theorem State.setDsp_vis (v : Byte) : (s.setDsp v).vis = s.vis := rfl
@[simp] theorem State.setDsp_dis (v : Byte) : (s.setDsp v).dis = s.dis := rfl
@[simp] theorem State.setDsp_tcur (v : Byte) : (s.setDsp v).tcur = s.tcur := rfl
@[simp] theorem State.setDsp_replies (v : Byte) : (s.setDsp v).replies = s.replies := rfl
@[simp] theorem State.setDsp_out (v : Byte) : (s.setDsp v).out = s.out := rfl
@[simp] theorem State.setDsp_draws (v : Byte) : (s.setDsp v).draws = s.draws := rfl
@[simp] theorem State.setDsp_inbox (v : Byte) : (s.setDsp v).inbox = s.inbox := rfl
@[simp] theorem State.setDsp_cpu (v : Byte) : (s.setDsp v).cpu = s.cpu := rfl

@[simp] theorem State.setDis_params (d : Bool) : (s.setDis d).params = s.params := rfl
@[simp] theorem State.setDis_ram (d : Bool) : (s.setDis d).ram = s.ram := rfl
@[simp] theorem State.setDis_kbd (d : Bool) : (s.setDis d).kbd = s.kbd := rfl
@[simp] theorem State.setDis_kbdcr (d : Bool) : (s.setDis d).kbdcr = s.kbdcr := rfl
@[simp] theorem State.setDis_dsp (d : Bool) : (s.setDis d).dsp = s.dsp := rfl
@[simp] theorem State.setDis_dspcr (d : Bool) : (s.setDis d).dspcr = s.dspcr := rfl
@[simp] theorem State.setDis_cell (d : Bool) : (s.setDis d).cell = s.cell := rfl
@[simp] theorem State.setDis_col (d : Bool) : (s.setDis d).col = s.col := rfl
@[simp] theorem State.setDis_row (d : Bool) : (s.setDis d).row = s.row := rfl
@[simp] theorem State.setDis_vis (d : Bool) : (s.setDis d).vis = s.vis := rfl
@[simp] theorem State.setDis_dis (d : Bool) : (s.setDis d).dis = d := rfl
@[simp] theorem State.setDis_tcur (d : Bool) : (s.setDis d).tcur = s.tcur := rfl
@[simp] theorem State.setDis_replies (d : Bool) : (s.setDis d).replies = s.replies := rfl
@[simp] theorem State.setDis_out (d : Bool) : (s.setDis d).out = s.out := rfl
@[simp] theorem State.setDis_draws (d : Bool) : (s.setDis d).draws = s.draws := rfl
@[simp] theorem State.setDis_inbox (d : Bool) : (s.setDis d).inbox = s.inbox := rfl
@[simp] theorem State.setDis_cpu (d : Bool) : (s.setDis d).cpu = s.cpu := rfl

@[simp] theorem State.clearScreen_params : (s.clearScreen).params = s.params := rfl
@[simp] theorem State.clearScreen_ram : (s.clearScreen).ram = s.ram := rfl
@[simp] theorem State.clearScreen_kbd : (s.clearScreen).kbd = s.kbd := rfl
@[simp] theorem State.clearScreen_kbdcr : (s.clearScreen).kbdcr = s.kbdcr := rfl
@[simp] theorem State.clearScreen_dsp : (s.clearScreen).dsp = s.dsp := rfl
@[simp] theorem State.clearScreen_dspcr : (s.clearScreen).dspcr = s.dspcr := rfl
@[simp] theorem State.clearScreen_cell : (s.clearScreen).cell = Grid.blank := rfl
@[simp] theorem State.clearScreen_col : (s.clearScreen).col = 0 := rfl
@[simp] theorem State.clearScreen_row : (s.clearScreen).row = 0 := rfl
@[simp] theorem State.clearScreen_vis : (s.clearScreen).vis = s.vis := rfl
@[simp] theorem State.clearScreen_dis : (s.clearScreen).dis = false := rfl
@[simp] theorem State.clearScreen_tcur : (s.clearScreen).tcur = s.tcur := rfl
@[simp] theorem State.clearScreen_replies : (s.clearScreen).replies = s.replies := rfl
@[simp] theorem State.clearScreen_out : (s.clearScreen).out = s.out := rfl
@[simp] theorem State.clearScreen_draws : (s.clearScreen).draws = s.draws := rfl
@[simp] theorem State.clearScreen_inbox : (s.clearScreen).inbox = s.inbox := rfl
@[simp] theorem State.clearScreen_cpu : (s.clearScreen).cpu = s.cpu := rfl

@[simp] theorem State.flipVis_params : (s.flipVis).params = s.params := rfl
@[simp] theorem State.flipVis_ram : (s.flipVis).ram = s.ram := rfl
@[simp] theorem State.flipVis_kbd : (s.flipVis).kbd = s.kbd := rfl
@[simp] theorem State.flipVis_kbdcr : (s.flipVis).kbdcr = s.kbdcr := rfl
@[simp] theorem State.flipVis_dsp : (s.flipVis).dsp = s.dsp := rfl
@[simp] theorem State.flipVis_dspcr : (s.flipVis).dspcr = s.dspcr := rfl
@[simp] theorem State.flipVis_cell : (s.flipVis).cell = s.cell := rfl
@[simp] theorem State.flipVis_col : (s.flipVis).col = s.col := rfl
@[simp] theorem State.flipVis_row : (s.flipVis).row = s.row := rfl
@[simp] theorem State.flipVis_vis : (s.flipVis).vis = !s.vis := rfl
@[simp] theorem State.flipVis_dis : (s.flipVis).dis = s.dis := rfl
@[simp] theorem State.flipVis_tcur : (s.flipVis).tcur = s.tcur := rfl
@[simp] theorem State.flipVis_replies : (s.flipVis).replies = s.replies := rfl
@[simp] theorem State.flipVis_out : (s.flipVis).out = s.out := rfl
@[simp] theorem State.flipVis_draws : (s.flipVis).draws = s.draws := rfl
@[simp] theorem State.flipVis_inbox : (s.flipVis).inbox = s.inbox := rfl
@[simp] theorem State.flipVis_cpu : (s.flipVis).cpu = s.cpu := rfl

@[simp] theorem State.setTcur_params (t : BitVec 16) : (s.setTcur t).params = s.params := rfl
@[simp] theorem State.setTcur_ram (t : BitVec 16) : (s.setTcur t).ram = s.ram := rfl
@[simp] theorem State.setTcur_kbd (t : BitVec 16) : (s.setTcur t).kbd = s.kbd := rfl
@[simp] theorem State.setTcur_kbdcr (t : BitVec 16) : (s.setTcur t).kbdcr = s.kbdcr := rfl
@[simp] theorem State.setTcur_dsp (t : BitVec 16) : (s.setTcur t).dsp = s.dsp := rfl
@[simp] theorem State.setTcur_dspcr (t : BitVec 16) : (s.setTcur t).dspcr = s.dspcr := rfl
@[simp] theorem State.setTcur_cell (t : BitVec 16) : (s.setTcur t).cell = s.cell := rfl
@[simp] theorem State.setTcur_col (t : BitVec 16) : (s.setTcur t).col = s.col := rfl
@[simp] theorem State.setTcur_row (t : BitVec 16) : (s.setTcur t).row = s.row := rfl
@[simp] theorem State.setTcur_vis (t : BitVec 16) : (s.setTcur t).vis = s.vis := rfl
@[simp] theorem State.setTcur_dis (t : BitVec 16) : (s.setTcur t).dis = s.dis := rfl
@[simp] theorem State.setTcur_tcur (t : BitVec 16) : (s.setTcur t).tcur = t := rfl
@[simp] theorem State.setTcur_replies (t : BitVec 16) : (s.setTcur t).replies = s.replies := rfl
@[simp] theorem State.setTcur_out (t : BitVec 16) : (s.setTcur t).out = s.out := rfl
@[simp] theorem State.setTcur_draws (t : BitVec 16) : (s.setTcur t).draws = s.draws := rfl
@[simp] theorem State.setTcur_inbox (t : BitVec 16) : (s.setTcur t).inbox = s.inbox := rfl
@[simp] theorem State.setTcur_cpu (t : BitVec 16) : (s.setTcur t).cpu = s.cpu := rfl

@[simp] theorem State.storePayload_params (p : List Byte) : (s.storePayload p).params = s.params := rfl
@[simp] theorem State.storePayload_ram (p : List Byte) : (s.storePayload p).ram = s.ram.store s.tcur.toNat p := rfl
@[simp] theorem State.storePayload_kbd (p : List Byte) : (s.storePayload p).kbd = s.kbd := rfl
@[simp] theorem State.storePayload_kbdcr (p : List Byte) : (s.storePayload p).kbdcr = s.kbdcr := rfl
@[simp] theorem State.storePayload_dsp (p : List Byte) : (s.storePayload p).dsp = s.dsp := rfl
@[simp] theorem State.storePayload_dspcr (p : List Byte) : (s.storePayload p).dspcr = s.dspcr := rfl
@[simp] theorem State.storePayload_cell (p : List Byte) : (s.storePayload p).cell = s.cell := rfl
@[simp] theorem State.storePayload_col (p : List Byte) : (s.storePayload p).col = s.col := rfl
@[simp] theorem State.storePayload_row (p : List Byte) : (s.storePayload p).row = s.row := rfl
@[simp] theorem State.storePayload_vis (p : List Byte) : (s.storePayload p).vis = s.vis := rfl
@[simp] theorem State.storePayload_dis (p : List Byte) : (s.storePayload p).dis = s.dis := rfl
@[simp] theorem State.storePayload_tcur (p : List Byte) : (s.storePayload p).tcur = BitVec.ofNat 16 (s.tcur.toNat + p.length) := rfl
@[simp] theorem State.storePayload_replies (p : List Byte) : (s.storePayload p).replies = s.replies := rfl
@[simp] theorem State.storePayload_out (p : List Byte) : (s.storePayload p).out = s.out := rfl
@[simp] theorem State.storePayload_draws (p : List Byte) : (s.storePayload p).draws = s.draws := rfl
@[simp] theorem State.storePayload_inbox (p : List Byte) : (s.storePayload p).inbox = s.inbox := rfl
@[simp] theorem State.storePayload_cpu (p : List Byte) : (s.storePayload p).cpu = s.cpu := rfl

@[simp] theorem State.deliver_params (st : Stimulus) : (s.deliver st).params = s.params := rfl
@[simp] theorem State.deliver_ram (st : Stimulus) : (s.deliver st).ram = s.ram := rfl
@[simp] theorem State.deliver_kbd (st : Stimulus) : (s.deliver st).kbd = s.kbd := rfl
@[simp] theorem State.deliver_kbdcr (st : Stimulus) : (s.deliver st).kbdcr = s.kbdcr := rfl
@[simp] theorem State.deliver_dsp (st : Stimulus) : (s.deliver st).dsp = s.dsp := rfl
@[simp] theorem State.deliver_dspcr (st : Stimulus) : (s.deliver st).dspcr = s.dspcr := rfl
@[simp] theorem State.deliver_cell (st : Stimulus) : (s.deliver st).cell = s.cell := rfl
@[simp] theorem State.deliver_col (st : Stimulus) : (s.deliver st).col = s.col := rfl
@[simp] theorem State.deliver_row (st : Stimulus) : (s.deliver st).row = s.row := rfl
@[simp] theorem State.deliver_vis (st : Stimulus) : (s.deliver st).vis = s.vis := rfl
@[simp] theorem State.deliver_dis (st : Stimulus) : (s.deliver st).dis = s.dis := rfl
@[simp] theorem State.deliver_tcur (st : Stimulus) : (s.deliver st).tcur = s.tcur := rfl
@[simp] theorem State.deliver_replies (st : Stimulus) : (s.deliver st).replies = s.replies := rfl
@[simp] theorem State.deliver_out (st : Stimulus) : (s.deliver st).out = s.out := rfl
@[simp] theorem State.deliver_draws (st : Stimulus) : (s.deliver st).draws = s.draws := rfl
@[simp] theorem State.deliver_inbox (st : Stimulus) : (s.deliver st).inbox = st :: s.inbox := rfl
@[simp] theorem State.deliver_cpu (st : Stimulus) : (s.deliver st).cpu = s.cpu := rfl

@[simp] theorem State.resetAll_params : (s.resetAll).params = s.params := rfl
@[simp] theorem State.resetAll_ram : (s.resetAll).ram = Memory.filled := rfl
@[simp] theorem State.resetAll_kbd : (s.resetAll).kbd = s.kbd := rfl
@[simp] theorem State.resetAll_kbdcr : (s.resetAll).kbdcr = s.kbdcr := rfl
@[simp] theorem State.resetAll_dsp : (s.resetAll).dsp = s.dsp := rfl
@[simp] theorem State.resetAll_dspcr : (s.resetAll).dspcr = s.dspcr := rfl
@[simp] theorem State.resetAll_cell : (s.resetAll).cell = Grid.blank := rfl
@[simp] theorem State.resetAll_col : (s.resetAll).col = 0 := rfl
@[simp] theorem State.resetAll_row : (s.resetAll).row = 0 := rfl
@[simp] theorem State.resetAll_vis : (s.resetAll).vis = s.vis := rfl
@[simp] theorem State.resetAll_dis : (s.resetAll).dis = false := rfl
@[simp] theorem State.resetAll_tcur : (s.resetAll).tcur = s.tcur := rfl
@[simp] theorem State.resetAll_replies : (s.resetAll).replies = s.replies := rfl
@[simp] theorem State.resetAll_out : (s.resetAll).out = s.out ++ [.cpuReset] := rfl
@[simp] theorem State.resetAll_draws : (s.resetAll).draws = s.draws := rfl
@[simp] theorem State.resetAll_inbox : (s.resetAll).inbox = s.inbox := rfl
@[simp] theorem State.resetAll_cpu : (s.resetAll).cpu = s.cpu := rfl

@[simp] theorem State.quiesce_params : (s.quiesce).params = s.params := rfl
@[simp] theorem State.quiesce_ram : (s.quiesce).ram = s.ram := rfl
@[simp] theorem State.quiesce_kbd : (s.quiesce).kbd = 0x00 := rfl
@[simp] theorem State.quiesce_kbdcr : (s.quiesce).kbdcr = 0x00 := rfl
@[simp] theorem State.quiesce_dsp : (s.quiesce).dsp = 0x00 := rfl
@[simp] theorem State.quiesce_dspcr : (s.quiesce).dspcr = 0x00 := rfl
@[simp] theorem State.quiesce_cell : (s.quiesce).cell = s.cell := rfl
@[simp] theorem State.quiesce_col : (s.quiesce).col = 0 := rfl
@[simp] theorem State.quiesce_row : (s.quiesce).row = 0 := rfl
@[simp] theorem State.quiesce_vis : (s.quiesce).vis = false := rfl
@[simp] theorem State.quiesce_dis : (s.quiesce).dis = false := rfl
@[simp] theorem State.quiesce_tcur : (s.quiesce).tcur = 0x0000 := rfl
@[simp] theorem State.quiesce_replies : (s.quiesce).replies = s.replies := rfl
@[simp] theorem State.quiesce_out : (s.quiesce).out = s.out := rfl
@[simp] theorem State.quiesce_draws : (s.quiesce).draws = s.draws := rfl
@[simp] theorem State.quiesce_inbox : (s.quiesce).inbox = s.inbox := rfl
@[simp] theorem State.quiesce_cpu : (s.quiesce).cpu = s.cpu := rfl

/-! The updates with a case split leave the other fields alone. -/

@[simp] theorem State.newLine_params : (s.newLine).params = s.params := by
  unfold State.newLine; split <;> rfl
@[simp] theorem State.newLine_ram : (s.newLine).ram = s.ram := by
  unfold State.newLine; split <;> rfl
@[simp] theorem State.newLine_kbd : (s.newLine).kbd = s.kbd := by
  unfold State.newLine; split <;> rfl
@[simp] theorem State.newLine_kbdcr : (s.newLine).kbdcr = s.kbdcr := by
  unfold State.newLine; split <;> rfl
@[simp] theorem State.newLine_dsp : (s.newLine).dsp = s.dsp := by
  unfold State.newLine; split <;> rfl
@[simp] theorem State.newLine_dspcr : (s.newLine).dspcr = s.dspcr := by
  unfold State.newLine; split <;> rfl
@[simp] theorem State.newLine_vis : (s.newLine).vis = s.vis := by
  unfold State.newLine; split <;> rfl
@[simp] theorem State.newLine_dis : (s.newLine).dis = s.dis := by
  unfold State.newLine; split <;> rfl
@[simp] theorem State.newLine_tcur : (s.newLine).tcur = s.tcur := by
  unfold State.newLine; split <;> rfl
@[simp] theorem State.newLine_replies : (s.newLine).replies = s.replies := by
  unfold State.newLine; split <;> rfl
@[simp] theorem State.newLine_out : (s.newLine).out = s.out := by
  unfold State.newLine; split <;> rfl
@[simp] theorem State.newLine_draws : (s.newLine).draws = s.draws := by
  unfold State.newLine; split <;> rfl
@[simp] theorem State.newLine_inbox : (s.newLine).inbox = s.inbox := by
  unfold State.newLine; split <;> rfl
@[simp] theorem State.newLine_cpu : (s.newLine).cpu = s.cpu := by
  unfold State.newLine; split <;> rfl

@[simp] theorem State.storeCode_params (v : Code) : (s.storeCode v).params = s.params := by
  unfold State.storeCode; split <;> rfl
@[simp] theorem State.storeCode_ram (v : Code) : (s.storeCode v).ram = s.ram := by
  unfold State.storeCode; split <;> rfl
@[simp] theorem State.storeCode_kbd (v : Code) : (s.storeCode v).kbd = s.kbd := by
  unfold State.storeCode; split <;> rfl
@[simp] theorem State.storeCode_kbdcr (v : Code) : (s.storeCode v).kbdcr = s.kbdcr := by
  unfold State.storeCode; split <;> rfl
@[simp] theorem State.storeCode_dsp (v : Code) : (s.storeCode v).dsp = s.dsp := by
  unfold State.storeCode; split <;> rfl
@[simp] theorem State.storeCode_dspcr (v : Code) : (s.storeCode v).dspcr = s.dspcr := by
  unfold State.storeCode; split <;> rfl
@[simp] theorem State.storeCode_row (v : Code) : (s.storeCode v).row = s.row := by
  unfold State.storeCode; split <;> rfl
@[simp] theorem State.storeCode_vis (v : Code) : (s.storeCode v).vis = s.vis := by
  unfold State.storeCode; split <;> rfl
@[simp] theorem State.storeCode_dis (v : Code) : (s.storeCode v).dis = s.dis := by
  unfold State.storeCode; split <;> rfl
@[simp] theorem State.storeCode_tcur (v : Code) : (s.storeCode v).tcur = s.tcur := by
  unfold State.storeCode; split <;> rfl
@[simp] theorem State.storeCode_replies (v : Code) : (s.storeCode v).replies = s.replies := by
  unfold State.storeCode; split <;> rfl
@[simp] theorem State.storeCode_out (v : Code) : (s.storeCode v).out = s.out := by
  unfold State.storeCode; split <;> rfl
@[simp] theorem State.storeCode_draws (v : Code) : (s.storeCode v).draws = s.draws := by
  unfold State.storeCode; split <;> rfl
@[simp] theorem State.storeCode_inbox (v : Code) : (s.storeCode v).inbox = s.inbox := by
  unfold State.storeCode; split <;> rfl
@[simp] theorem State.storeCode_cpu (v : Code) : (s.storeCode v).cpu = s.cpu := by
  unfold State.storeCode; split <;> rfl

@[simp] theorem State.setCursor_params (x y : Byte) : (s.setCursor x y).params = s.params := by
  unfold State.setCursor; split <;> rfl
@[simp] theorem State.setCursor_ram (x y : Byte) : (s.setCursor x y).ram = s.ram := by
  unfold State.setCursor; split <;> rfl
@[simp] theorem State.setCursor_kbd (x y : Byte) : (s.setCursor x y).kbd = s.kbd := by
  unfold State.setCursor; split <;> rfl
@[simp] theorem State.setCursor_kbdcr (x y : Byte) : (s.setCursor x y).kbdcr = s.kbdcr := by
  unfold State.setCursor; split <;> rfl
@[simp] theorem State.setCursor_dsp (x y : Byte) : (s.setCursor x y).dsp = s.dsp := by
  unfold State.setCursor; split <;> rfl
@[simp] theorem State.setCursor_dspcr (x y : Byte) : (s.setCursor x y).dspcr = s.dspcr := by
  unfold State.setCursor; split <;> rfl
@[simp] theorem State.setCursor_cell (x y : Byte) : (s.setCursor x y).cell = s.cell := by
  unfold State.setCursor; split <;> rfl
@[simp] theorem State.setCursor_vis (x y : Byte) : (s.setCursor x y).vis = s.vis := by
  unfold State.setCursor; split <;> rfl
@[simp] theorem State.setCursor_dis (x y : Byte) : (s.setCursor x y).dis = s.dis := by
  unfold State.setCursor; split <;> rfl
@[simp] theorem State.setCursor_tcur (x y : Byte) : (s.setCursor x y).tcur = s.tcur := by
  unfold State.setCursor; split <;> rfl
@[simp] theorem State.setCursor_replies (x y : Byte) : (s.setCursor x y).replies = s.replies := by
  unfold State.setCursor; split <;> rfl
@[simp] theorem State.setCursor_out (x y : Byte) : (s.setCursor x y).out = s.out := by
  unfold State.setCursor; split <;> rfl
@[simp] theorem State.setCursor_draws (x y : Byte) : (s.setCursor x y).draws = s.draws := by
  unfold State.setCursor; split <;> rfl
@[simp] theorem State.setCursor_inbox (x y : Byte) : (s.setCursor x y).inbox = s.inbox := by
  unfold State.setCursor; split <;> rfl
@[simp] theorem State.setCursor_cpu (x y : Byte) : (s.setCursor x y).cpu = s.cpu := by
  unfold State.setCursor; split <;> rfl

@[simp] theorem State.putChar_params (b : Byte) : (s.putChar b).params = s.params := by
  unfold State.putChar; dsimp only; split <;> split <;> simp
@[simp] theorem State.putChar_ram (b : Byte) : (s.putChar b).ram = s.ram := by
  unfold State.putChar; dsimp only; split <;> split <;> simp
@[simp] theorem State.putChar_kbd (b : Byte) : (s.putChar b).kbd = s.kbd := by
  unfold State.putChar; dsimp only; split <;> split <;> simp
@[simp] theorem State.putChar_kbdcr (b : Byte) : (s.putChar b).kbdcr = s.kbdcr := by
  unfold State.putChar; dsimp only; split <;> split <;> simp
@[simp] theorem State.putChar_dsp (b : Byte) : (s.putChar b).dsp = s.dsp := by
  unfold State.putChar; dsimp only; split <;> split <;> simp
@[simp] theorem State.putChar_dspcr (b : Byte) : (s.putChar b).dspcr = s.dspcr := by
  unfold State.putChar; dsimp only; split <;> split <;> simp
@[simp] theorem State.putChar_vis (b : Byte) : (s.putChar b).vis = s.vis := by
  unfold State.putChar; dsimp only; split <;> split <;> simp
@[simp] theorem State.putChar_tcur (b : Byte) : (s.putChar b).tcur = s.tcur := by
  unfold State.putChar; dsimp only; split <;> split <;> simp
@[simp] theorem State.putChar_replies (b : Byte) : (s.putChar b).replies = s.replies := by
  unfold State.putChar; dsimp only; split <;> split <;> simp
@[simp] theorem State.putChar_out (b : Byte) : (s.putChar b).out = s.out := by
  unfold State.putChar; dsimp only; split <;> split <;> simp
@[simp] theorem State.putChar_draws (b : Byte) : (s.putChar b).draws = s.draws := by
  unfold State.putChar; dsimp only; split <;> split <;> simp
@[simp] theorem State.putChar_inbox (b : Byte) : (s.putChar b).inbox = s.inbox := by
  unfold State.putChar; dsimp only; split <;> split <;> simp
@[simp] theorem State.putChar_cpu (b : Byte) : (s.putChar b).cpu = s.cpu := by
  unfold State.putChar; dsimp only; split <;> split <;> simp

@[simp] theorem State.putChar_dis (b : Byte) : (s.putChar b).dis = false := rfl

@[simp] theorem State.setPlan_params (p : CpuPlan) : (s.setPlan p).params = s.params := rfl
@[simp] theorem State.setPlan_ram (p : CpuPlan) : (s.setPlan p).ram = s.ram := rfl
@[simp] theorem State.setPlan_kbd (p : CpuPlan) : (s.setPlan p).kbd = s.kbd := rfl
@[simp] theorem State.setPlan_kbdcr (p : CpuPlan) : (s.setPlan p).kbdcr = s.kbdcr := rfl
@[simp] theorem State.setPlan_dsp (p : CpuPlan) : (s.setPlan p).dsp = s.dsp := rfl
@[simp] theorem State.setPlan_dspcr (p : CpuPlan) : (s.setPlan p).dspcr = s.dspcr := rfl
@[simp] theorem State.setPlan_cell (p : CpuPlan) : (s.setPlan p).cell = s.cell := rfl
@[simp] theorem State.setPlan_col (p : CpuPlan) : (s.setPlan p).col = s.col := rfl
@[simp] theorem State.setPlan_row (p : CpuPlan) : (s.setPlan p).row = s.row := rfl
@[simp] theorem State.setPlan_vis (p : CpuPlan) : (s.setPlan p).vis = s.vis := rfl
@[simp] theorem State.setPlan_dis (p : CpuPlan) : (s.setPlan p).dis = s.dis := rfl
@[simp] theorem State.setPlan_tcur (p : CpuPlan) : (s.setPlan p).tcur = s.tcur := rfl
@[simp] theorem State.setPlan_replies (p : CpuPlan) : (s.setPlan p).replies = s.replies := rfl
@[simp] theorem State.setPlan_out (p : CpuPlan) : (s.setPlan p).out = s.out := rfl
@[simp] theorem State.setPlan_draws (p : CpuPlan) : (s.setPlan p).draws = s.draws := rfl
@[simp] theorem State.setPlan_inbox (p : CpuPlan) : (s.setPlan p).inbox = s.inbox := rfl
@[simp] theorem State.setPlan_cpu (p : CpuPlan) : (s.setPlan p).cpu = p := rfl

end Sys2Proof.Machine
end

