-- ==== Sys2Proof/Laws/Ops.lean ====
section
/-! SUPPORT. What each shared operation over the state does: the two steps of `PUTC`, the cursor, the inbox, and what keeps
the memory's canonical form. -/

namespace Sys2Proof.Machine

/-- A new-line byte is not printable, so step 3 of `PUTC` never stores it (42_terminal.md R140 (e)). -/
theorem isPrintable_of_isNewLine {b : Byte} (h : isNewLine b = true) : isPrintable b = false := by
  simp only [isNewLine, Bool.or_eq_true, beq_iff_eq] at h
  rcases h with rfl | rfl <;> decide

@[simp] theorem State.newLine_col (s : State) : s.newLine.col = 0 := by unfold State.newLine; split <;> rfl

theorem State.newLine_row (s : State) :
    s.newLine.row.val = if s.row.val = 23 then 23 else s.row.val + 1 := by
  unfold State.newLine
  split
  · next h => exact h
  · rfl

theorem State.newLine_cell (s : State) : s.newLine.cell = if s.row.val = 23 then s.cell.scroll else s.cell := by
  unfold State.newLine
  split <;> rfl

theorem State.storeCode_col (s : State) (v : Code) (h : s.col.val < 40) :
    (s.storeCode v).col.val = s.col.val + 1 := by
  unfold State.storeCode; simp [h]

theorem State.storeCode_code (s : State) (v : Code) (h : s.col.val < 40) (r : Fin 24) (c : Fin 40) :
    (s.storeCode v).cell.code r c = if r = s.row ∧ c.val = s.col.val then v else s.cell.code r c := by
  unfold State.storeCode
  rw [dif_pos h]
  simp only [Grid.code_put, Fin.ext_iff]

/-- Steps 2 and 3 of `PUTC` meet the store with a column inside the grid (42_terminal.md R140 (f)). -/
theorem State.col_lt_after_wrap (s : State) (b : Byte) :
    (if s.wraps b then s.newLine else s).col.val < 40 := by
  split
  · simp
  · next h =>
    have := s.col.isLt
    simp only [State.wraps, Bool.or_eq_true, decide_eq_true_eq, not_or] at h
    omega

/-- `PUTC` from its two middle steps (42_terminal.md R140). -/
theorem State.putChar_eq (s : State) (b : Byte) :
    s.putChar b =
      let s2 := if s.wraps b then (s.setDis true).newLine else s.setDis true
      (if isPrintable b then s2.storeCode (cellCode b) else s2).setDis false := rfl

theorem State.setCursor_row (s : State) (x y : Byte) :
    (s.setCursor x y).row.val = if y.toNat < 24 then y.toNat else s.row.val := by
  unfold State.setCursor; split <;> simp

theorem State.setCursor_col (s : State) (x y : Byte) :
    (s.setCursor x y).col.val = if y.toNat < 24 then min x.toNat 39 else 23 := by
  unfold State.setCursor
  split
  · split
    · simp; omega
    · simp; omega
  · rfl

theorem State.fetch_nil {s : State} (h : s.inbox = []) : s.fetch = none := by simp [State.fetch, h]

theorem State.fetch_cons {s : State} {st : Stimulus} {rest : List Stimulus} (h : s.inbox = st :: rest) :
    s.fetch = some (st, { s with inbox := rest }) := by simp [State.fetch, h]

@[simp] theorem State.fetch_deliver (s : State) (st : Stimulus) : (s.deliver st).fetch = some (st, s) := rfl

/-- A RAM write through the state keeps the canonical form. -/
theorem State.writeRam_wf {s : State} (h : s.ram.wf = true) (i : RamIndex) (v : Byte) :
    (s.writeRam i v).ram.wf = true := Memory.wf_write h i.isLt v

/-- A payload that is not past the end of RAM keeps the canonical form (43_tftp.md R172, R175). -/
theorem State.storePayload_wf {s : State} (h : s.ram.wf = true) {p : List Byte} (hp : s.pastRam p = false) :
    (s.storePayload p).ram.wf = true := by
  apply Memory.wf_store h
  simp only [State.pastRam, Bool.and_eq_false_iff, decide_eq_false_iff_not] at hp
  omega

theorem State.reset_ram_wf : State.reset.ram.wf = true := rfl

end Sys2Proof.Machine
end

