-- ==== Sys2Proof/Laws/Bus.lean ====
section
/-! SUPPORT. What a bus transaction and the batch of a tick can do: they always complete, and neither touches what the CPU has no path to (60_exceptions.md R228). -/

namespace Sys2Proof.Machine

/-- Decoding a bus transaction and executing the operation is performing the transaction (40_bus.md R100, R101). -/
theorem exec_decodeBus (t : BusTxn) (s : State) : exec (decodeBus s.params t) s = .next (busTxn t s) := by
  cases t with
  | rd a =>
    simp only [decodeBus, decodeRead, busTxn, busRead]
    cases region s.params a with
    | io sub =>
      dsimp only
      split
      · rfl
      split
      · rfl
      split
      · rfl
      split <;> rfl
    | ram _ => rfl
    | aliasWindow _ => rfl
    | rom _ => rfl
    | unmapped => rfl
  | wr a v =>
    simp only [decodeBus, decodeWrite, busTxn, busWrite]
    cases region s.params a with
    | io sub => dsimp only; split <;> rfl
    | ram _ => rfl
    | aliasWindow _ => rfl
    | rom _ => rfl
    | unmapped => rfl

/-- What an `RD` can write: the reply, the data-ready flag, the draw counter. -/
theorem busRead_frame (a : Addr) (s : State) :
    { busRead a s with replies := s.replies, kbdcr := s.kbdcr, draws := s.draws } = s := by
  unfold busRead
  split
  · rfl
  · rfl
  · split
    · rfl
    split
    · rfl
    split
    · unfold rdDsp; split <;> rfl
    split <;> rfl
  · rfl
  · rfl

/-- What a `WR` can write: RAM, `DSP` and the terminal. -/
theorem busWrite_frame (a : Addr) (v : Byte) (s : State) :
    { busWrite a v s with ram := s.ram, dsp := s.dsp, cell := s.cell, col := s.col, row := s.row, dis := s.dis } = s := by
  unfold busWrite
  split
  · rfl
  · rfl
  · split
    · unfold wrDsp
      cases s
      simp only [State.mk.injEq]
      simp
    · rfl
  · rfl
  · rfl

/-- What the CPU has no path to is the same after a transaction. -/
theorem busTxn_frame (t : BusTxn) (s : State) :
    (busTxn t s).params = s.params ∧ (busTxn t s).kbd = s.kbd ∧ (busTxn t s).dspcr = s.dspcr ∧
      (busTxn t s).vis = s.vis ∧ (busTxn t s).tcur = s.tcur ∧ (busTxn t s).out = s.out ∧
      (busTxn t s).inbox = s.inbox ∧ (busTxn t s).cpu = s.cpu := by
  cases t with
  | rd a =>
    have h := busRead_frame a s
    refine ⟨?_, ?_, ?_, ?_, ?_, ?_, ?_, ?_⟩ <;> rw [← h] <;> simp [busTxn, h]
  | wr a v =>
    have h := busWrite_frame a v s
    refine ⟨?_, ?_, ?_, ?_, ?_, ?_, ?_, ?_⟩ <;> rw [← h] <;> simp [busTxn, h]

/-- What every transaction keeps, and what does not depend on the plan, a tick keeps. -/
theorem runPlan_induction {P : State → Prop} (p : CpuPlan) {s : State} (h : P s)
    (keep : ∀ t s, P s → P (busTxn t s)) (plan : ∀ q s, P s → P (s.setPlan q)) : P (runPlan p s) := by
  induction p generalizing s with
  | halt => exact plan _ _ h
  | endTick next => exact plan _ _ h
  | txn t next ih => exact ih (keep t s h)
  | ifByte b yes no ihYes ihNo =>
    unfold runPlan
    split
    · exact ihYes h
    · exact ihNo h

end Sys2Proof.Machine
end

