-- ==== Sys2Proof/Laws/Operands.lean ====
section
/-! SUPPORT. The laws of the operand forms: which region each range of addresses selects, that the ranges leave none out, and
the two byte orders. -/

namespace Sys2Proof

theorem region_ram {p : Params} {a : Addr} {i : RamIndex} (h : a.toNat = i.val) : region p a = .ram i := by
  have := i.isLt
  unfold region
  rw [dif_pos (by omega)]
  exact congrArg Region.ram (Fin.ext h)

theorem region_aliasWindow {p : Params} {a : Addr} {off : Fin 0x1000} (h : a.toNat = p.aliasBase + off.val) :
    region p a = .aliasWindow off := by
  have := off.isLt
  have := p.ramBelowAlias
  unfold region
  rw [dif_neg (by omega), dif_pos (by omega)]
  exact congrArg Region.aliasWindow (Fin.ext (show a.toNat - p.aliasBase = off.val by omega))

theorem region_io {p : Params} {a : Addr} {sub : Fin 16} (h : a.toNat = p.ioBase + sub.val) :
    region p a = .io sub := by
  have := sub.isLt
  have := p.ramBelowIo
  have := p.windowsApart
  unfold region
  rw [dif_neg (by omega), dif_neg (by omega), dif_pos (by omega)]
  exact congrArg Region.io (Fin.ext (show a.toNat - p.ioBase = sub.val by omega))

theorem region_rom {p : Params} {a : Addr} {i : Fin 256} (h : a.toNat = 0xFF00 + i.val) : region p a = .rom i := by
  have := p.aliasBelowRom
  have := p.ioBelowRom
  unfold region
  rw [dif_neg (by omega), dif_neg (by omega), dif_neg (by omega), dif_pos (by omega)]
  exact congrArg Region.rom (Fin.ext (show a.toNat - 0xFF00 = i.val by omega))

theorem region_unmapped {p : Params} {a : Addr} (hram : 0x5000 ≤ a.toNat)
    (hwin : a.toNat < p.aliasBase ∨ p.aliasBase + 0x1000 ≤ a.toNat)
    (hio : a.toNat < p.ioBase ∨ p.ioBase + 16 ≤ a.toNat) (hrom : a.toNat < 0xFF00) : region p a = .unmapped := by
  unfold region
  rw [dif_neg (by omega), dif_neg (by omega), dif_neg (by omega), dif_neg (by omega)]

/-- Every address lies in one of the five ranges (40_bus.md R100). -/
theorem address_cases (p : Params) (a : Addr) :
    (∃ i : RamIndex, a.toNat = i.val) ∨ (∃ off : Fin 0x1000, a.toNat = p.aliasBase + off.val) ∨
    (∃ sub : Fin 16, a.toNat = p.ioBase + sub.val) ∨ (∃ i : Fin 256, a.toNat = 0xFF00 + i.val) ∨
    (0x5000 ≤ a.toNat ∧ (a.toNat < p.aliasBase ∨ p.aliasBase + 0x1000 ≤ a.toNat) ∧
      (a.toNat < p.ioBase ∨ p.ioBase + 16 ≤ a.toNat) ∧ a.toNat < 0xFF00) := by
  have := a.isLt
  by_cases hram : a.toNat < 0x5000
  · exact .inl ⟨⟨_, hram⟩, rfl⟩
  by_cases hwin : p.aliasBase ≤ a.toNat ∧ a.toNat < p.aliasBase + 0x1000
  · exact .inr (.inl ⟨⟨a.toNat - p.aliasBase, by omega⟩, by simp; omega⟩)
  by_cases hio : p.ioBase ≤ a.toNat ∧ a.toNat < p.ioBase + 16
  · exact .inr (.inr (.inl ⟨⟨a.toNat - p.ioBase, by omega⟩, by simp; omega⟩))
  by_cases hrom : 0xFF00 ≤ a.toNat
  · exact .inr (.inr (.inr (.inl ⟨⟨a.toNat - 0xFF00, by omega⟩, by simp; omega⟩)))
  · exact .inr (.inr (.inr (.inr ⟨by omega, by omega, by omega, by omega⟩)))

theorem bigEndian_toNat (hi lo : Byte) : (bigEndian hi lo).toNat = hi.toNat * 256 + lo.toNat := by
  have := hi.isLt
  have := lo.isLt
  simp [bigEndian]
  omega

theorem littleEndian_toNat (lo hi : Byte) : (littleEndian lo hi).toNat = lo.toNat + 256 * hi.toNat := by
  have := hi.isLt
  have := lo.isLt
  simp [littleEndian]
  omega

/-- The two bytes of an opcode are the bytes it was read from. -/
theorem opBytes_bigEndian (hi lo : Byte) : opBytes (bigEndian hi lo) = [hi, lo] := by
  have := lo.isLt
  have h := bigEndian_toNat hi lo
  unfold opBytes
  rw [h, show (hi.toNat * 256 + lo.toNat) / 256 = hi.toNat by omega,
    show (hi.toNat * 256 + lo.toNat) % 256 = lo.toNat by omega, BitVec.ofNat_toNat, BitVec.ofNat_toNat]
  simp

theorem bigEndian_of_opBytes (op : BitVec 16) :
    bigEndian (BitVec.ofNat 8 (op.toNat / 256)) (BitVec.ofNat 8 (op.toNat % 256)) = op := by
  have := op.isLt
  apply BitVec.eq_of_toNat_eq
  rw [bigEndian_toNat]
  simp
  omega

theorem busAddr_toNat {base off : Nat} (h : base + off < 0x10000) : (busAddr base off).toNat = base + off := by
  simp [busAddr]
  omega

end Sys2Proof
end

