-- ==== Sys2Proof/Laws/PerInstr.lean ====
section
/-! SUPPORT. A fact about every operation as syntax, one lemma per constructor: its presentation has the format the
table gives it (30_encoding.md R70, R81). -/

namespace Sys2Proof.Laws.FormatKept

/-- The presentation of the operation has the operation's format, whatever the parameters. -/
def Statement (i : Instr) : Prop := ∀ p : Params, (encode p i).format = i.format

theorem rdRam (a : RamIndex) : Statement (.rdRam a) := fun _ => rfl
theorem wrRam (a : RamIndex) (b : Byte) : Statement (.wrRam a b) := fun _ => rfl
theorem rdAlias (a : Fin 0x1000) : Statement (.rdAlias a) := fun _ => rfl
theorem wrAlias (a : Fin 0x1000) (b : Byte) : Statement (.wrAlias a b) := fun _ => rfl
theorem rdKbd : Statement (.rdKbd) := fun _ => rfl
theorem rdKbdcr : Statement (.rdKbdcr) := fun _ => rfl
theorem rdDsp : Statement (.rdDsp) := fun _ => rfl
theorem rdDspcr : Statement (.rdDspcr) := fun _ => rfl
theorem rdIox (a : Fin 16) : Statement (.rdIox a) := fun _ => rfl
theorem wrDsp (a : Byte) : Statement (.wrDsp a) := fun _ => rfl
theorem wrIox (a : Fin 16) (b : Byte) : Statement (.wrIox a b) := fun _ => rfl
theorem rdRom (a : Fin 256) : Statement (.rdRom a) := fun _ => rfl
theorem wrRom (a : Fin 256) (b : Byte) : Statement (.wrRom a b) := fun _ => rfl
theorem rdNone (a : Addr) : Statement (.rdNone a) := fun _ => rfl
theorem wrNone (a : Addr) (b : Byte) : Statement (.wrNone a b) := fun _ => rfl
theorem deposit (a : Byte) : Statement (.deposit a) := fun _ => rfl
theorem putc (a : Byte) : Statement (.putc a) := fun _ => rfl
theorem blink : Statement (.blink) := fun _ => rfl
theorem setcur (a : Byte) (b : Byte) : Statement (.setcur a b) := fun _ => rfl
theorem cls : Statement (.cls) := fun _ => rfl
theorem tftpShort (a : Session) (b : List Byte) : Statement (.tftpShort a b) := fun _ => rfl
theorem tftpWrq (a : Session) (b : List Byte) : Statement (.tftpWrq a b) := fun _ => rfl
theorem tftpData (a : Session) (b : Byte) (c : Byte) (d : List Byte) : Statement (.tftpData a b c d) := fun _ => rfl
theorem tftpOther (a : Session) (b : BitVec 16) (c : List Byte) : Statement (.tftpOther a b c) := fun _ => rfl
theorem connect (a : Session) : Statement (.connect a) := fun _ => rfl
theorem tbyteEtx (a : Session) : Statement (.tbyteEtx a) := fun _ => rfl
theorem tbyteLower (a : Session) (b : Byte) : Statement (.tbyteLower a b) := fun _ => rfl
theorem tbyteLf (a : Session) : Statement (.tbyteLf a) := fun _ => rfl
theorem tbyteDel (a : Session) : Statement (.tbyteDel a) := fun _ => rfl
theorem tbytePass (a : Session) (b : Byte) : Statement (.tbytePass a b) := fun _ => rfl
theorem tick : Statement (.tick) := fun _ => rfl
theorem reset : Statement (.reset) := fun _ => rfl
theorem poweron : Statement (.poweron) := fun _ => rfl

end Sys2Proof.Laws.FormatKept
end

