-- ==== Sys2Proof/Laws/Run.lean ====
section
/-! SUPPORT. Steps one after another: unfolding a run by one step, a step that takes a stimulus, and that a bus transaction
neither reads nor changes the environment or the four parameters that no rule reads. -/

namespace Sys2Proof.Machine

/-- The state in another environment: other stimuli waiting, another plan of the CPU. -/
def State.withEnv (s : State) (ib : List Stimulus) (c : CpuPlan) : State := { s with inbox := ib, cpu := c }

theorem State.withEnv_self (s : State) : s.withEnv s.inbox s.cpu = s := rfl

/-- A step with a stimulus waiting. -/
theorem step_of_inbox {s : State} {st : Stimulus} {rest : List Stimulus} (h : s.inbox = st :: rest) :
    step s = exec (decode s.params st) (s.withEnv rest s.cpu) := by
  unfold step State.fetch
  rw [h]
  rfl

/-- One step of a run. -/
theorem core_run_succ {k : Nat} {s t : State} (h : step s = .next t) :
    Host.Core.run core (k + 1) s = Host.Core.run core k t := by
  have h' : core.step s = .next t := h
  simp only [Host.Core.run, h']

theorem State.newLine_withEnv (s : State) (ib : List Stimulus) (c : CpuPlan) :
    (s.withEnv ib c).newLine = s.newLine.withEnv ib c := by
  unfold State.newLine State.withEnv
  dsimp only
  split <;> rfl

theorem State.storeCode_withEnv (s : State) (v : Code) (ib : List Stimulus) (c : CpuPlan) :
    (s.withEnv ib c).storeCode v = (s.storeCode v).withEnv ib c := by
  unfold State.storeCode State.withEnv
  dsimp only
  split <;> rfl

theorem State.putChar_withEnv (s : State) (b : Byte) (ib : List Stimulus) (c : CpuPlan) :
    (s.withEnv ib c).putChar b = (s.putChar b).withEnv ib c := by
  have h1 (s : State) : (s.withEnv ib c).wraps b = s.wraps b := rfl
  have h2 (s : State) (d : Bool) : (s.withEnv ib c).setDis d = (s.setDis d).withEnv ib c := rfl
  simp only [State.putChar, h1, h2]
  cases (s.setDis true).wraps b <;> cases isPrintable b <;>
    simp only [if_true, if_false, Bool.false_eq_true, State.newLine_withEnv, State.storeCode_withEnv, h2]

/-- A bus transaction neither reads nor changes the environment. -/
theorem busTxn_withEnv (t : BusTxn) (s : State) (ib : List Stimulus) (c : CpuPlan) :
    busTxn t (s.withEnv ib c) = (busTxn t s).withEnv ib c := by
  have hp : (s.withEnv ib c).params = s.params := rfl
  cases t with
  | rd a =>
    simp only [busTxn, busRead]
    rw [hp]
    cases region s.params a with
    | io sub =>
      dsimp only
      split
      · rfl
      split
      · rfl
      split
      · unfold rdDsp
        rw [hp]
        cases s.params.dspReadback <;> rfl
      split <;> rfl
    | ram _ => rfl
    | aliasWindow _ => rfl
    | rom _ => rfl
    | unmapped => rfl
  | wr a v =>
    simp only [busTxn, busWrite]
    rw [hp]
    cases region s.params a with
    | io sub =>
      dsimp only
      split
      · exact State.putChar_withEnv (s.setDsp v) _ ib c
      · rfl
    | ram _ => rfl
    | aliasWindow _ => rfl
    | rom _ => rfl
    | unmapped => rfl

/-- A step on a waiting bus transaction performs it. -/
theorem step_bus (t : BusTxn) (s : State) (rest : List Stimulus) (c : CpuPlan) :
    step (s.withEnv (.bus t :: rest) c) = .next ((busTxn t s).withEnv rest c) :=
  (exec_decodeBus t (s.withEnv rest c)).trans (congrArg Host.Outcome.next (busTxn_withEnv t s rest c))

/-- What a tick does is fixed by the plan it runs: the plan the state held before does not matter. -/
theorem runPlan_withEnv (p : CpuPlan) (s : State) (c : CpuPlan) : runPlan p (s.withEnv s.inbox c) = runPlan p s := by
  induction p generalizing s with
  | halt => rfl
  | endTick next => rfl
  | txn t next ih =>
    unfold runPlan
    rw [busTxn_withEnv, ← ih (busTxn t s), (busTxn_frame t s).2.2.2.2.2.2.1]
  | ifByte b yes no ihYes ihNo =>
    unfold runPlan
    rw [ihYes, ihNo]
    rfl

/-- `PUTC` reads none of the four parameters (00_scope.md R3). -/
theorem State.putChar_withUnread (s : State) (v : Byte) (m n k l : Nat) :
    (s.withUnread m n k l).putChar v = (s.putChar v).withUnread m n k l := by
  have hWraps (s : State) : (s.withUnread m n k l).wraps v = s.wraps v := rfl
  have hDis (s : State) (x : Bool) : (s.withUnread m n k l).setDis x = (s.setDis x).withUnread m n k l := rfl
  have hLine (s : State) : (s.withUnread m n k l).newLine = s.newLine.withUnread m n k l := by
    unfold State.newLine State.withUnread
    dsimp only
    split <;> rfl
  have hStore (s : State) (c : Code) :
      (s.withUnread m n k l).storeCode c = (s.storeCode c).withUnread m n k l := by
    unfold State.storeCode State.withUnread
    dsimp only
    split <;> rfl
  simp only [State.putChar, hWraps, hDis]
  cases (s.setDis true).wraps v <;> cases isPrintable v <;>
    simp only [if_true, if_false, Bool.false_eq_true, hLine, hStore, hDis]

/-- A bus transaction reads none of the four parameters (00_scope.md R3). -/
theorem busTxn_withUnread (t : BusTxn) (s : State) (m n k l : Nat) :
    busTxn t (s.withUnread m n k l) = (busTxn t s).withUnread m n k l := by
  have hRegion (x : Addr) : region (s.withUnread m n k l).params x = region s.params x := rfl
  cases t with
  | rd x =>
    simp only [busTxn, busRead, hRegion]
    cases region s.params x with
    | io sub =>
      dsimp only
      split
      · rfl
      split
      · rfl
      split
      · unfold rdDsp
        rw [show (s.withUnread m n k l).params.dspReadback = s.params.dspReadback from rfl]
        cases s.params.dspReadback <;> rfl
      split <;> rfl
    | _ => rfl
  | wr x v =>
    simp only [busTxn, busWrite, hRegion]
    cases region s.params x with
    | io sub =>
      dsimp only
      split
      · exact State.putChar_withUnread (s.setDsp v) _ m n k l
      · rfl
    | _ => rfl

/-- A tick reads none of the four parameters (00_scope.md R3). -/
theorem runPlan_withUnread (p : CpuPlan) (s : State) (m n k l : Nat) :
    runPlan p (s.withUnread m n k l) = (runPlan p s).withUnread m n k l := by
  induction p generalizing s with
  | halt => rfl
  | endTick => rfl
  | txn t next ih =>
    unfold runPlan
    rw [busTxn_withUnread, ih]
  | ifByte b yes no ihYes ihNo =>
    unfold runPlan
    rw [show (s.withUnread m n k l).lastByte = s.lastByte from rfl, ihYes, ihNo]
    split <;> rfl

end Sys2Proof.Machine
end

