-- ==== Sys2Proof/Tests/Slice0.lean ====
section
/-! SUPPORT. The model's own tests: the well-formedness checks, a decoding of every operation, steps whose expected results are
the vectors of 95_test_vectors.md (named in each comment), and for every obligation with hypotheses a witness that meets
them. Addresses are those of the default parameters. -/

namespace Sys2Proof.Tests

open Sys2Proof Sys2Proof.Machine

/-- What `f` reads from the next state, if there is one. -/
def after {α : Type} (o : Host.Outcome State Fault Refusal) (f : State → α) : Option α :=
  match o with
  | .next t => some (f t)
  | .fault _ => none
  | .refused _ => none

/-- The outcome is the stop `TFTP_RANGE`. -/
def stops (o : Host.Outcome State Fault Refusal) : Bool :=
  match o with
  | .next _ => false
  | .fault .tftpRange => true
  | .refused _ => false

/-- A step on one stimulus from the state `s`. -/
def on (s : State) (st : Stimulus) : Host.Outcome State Fault Refusal := step { s with inbox := [st] }

/-- The state after power-on with the terminal cursor moved. -/
def atCursor (col : Fin 41) (row : Fin 24) : State := { State.reset with col := col, row := row }

/-- The state after power-on with the load pointer written (`SETPTR`, 30_encoding.md R83). -/
def withPointer (lo hi : Byte) : State := { State.reset with ram := (Memory.filled.write 0x26 lo).write 0x27 hi }

/-- The parameters with another `DSP_READBACK`. -/
def paramsWith (m : DspReadback) : Params := { Params.default with dspReadback := m }

/-- The parameters with the lowest `IO_BASE` that R4 allows. -/
def paramsLowIo : Params :=
  { Params.default with
    ioBase := 0x5000
    ramBelowIo := by decide
    ioBelowRom := by decide
    windowsApart := by decide }

/-! ## Well-formedness: an ill-formed term for each check -/

theorem test_wf_rdIox :
    Instr.wellFormed Params.default (.rdIox 3) = false ∧
    Instr.wellFormed Params.default (.rdIox 4) = true := by decide

theorem test_wf_wrIox :
    Instr.wellFormed Params.default (.wrIox 2 0x00) = false ∧
    Instr.wellFormed Params.default (.wrIox 3 0x00) = true := by decide

theorem test_wf_rdNone :
    Instr.wellFormed Params.default (.rdNone 0x4FFF) = false ∧
    Instr.wellFormed Params.default (.rdNone 0x5000) = true := by decide

theorem test_wf_wrNone :
    Instr.wellFormed Params.default (.wrNone 0xFF00 0x00) = false ∧
    Instr.wellFormed Params.default (.wrNone 0xFEFF 0x00) = true := by decide

theorem test_wf_tftpShort :
    Instr.wellFormed Params.default (.tftpShort 1 [0x00, 0x02, 0x00, 0x00]) = false ∧
    Instr.wellFormed Params.default (.tftpShort 1 [0x00, 0x02, 0x00]) = true := by decide

theorem test_wf_tftpWrq :
    Instr.wellFormed Params.default (.tftpWrq 1 [0x00]) = false ∧
    Instr.wellFormed Params.default (.tftpWrq 1 [0x00, 0x00]) = true := by decide

theorem test_wf_tftpOther_wrq :
    Instr.wellFormed Params.default (.tftpOther 1 0x0002 [0x00, 0x00]) = false ∧
    Instr.wellFormed Params.default (.tftpOther 1 0x0103 [0x00, 0x00]) = true := by decide

theorem test_wf_tftpOther_data :
    Instr.wellFormed Params.default (.tftpOther 1 0x0003 [0x00, 0x00]) = false ∧
    Instr.wellFormed Params.default (.tftpOther 1 0x0004 [0x00, 0x00]) = true := by decide

theorem test_wf_tftpOther_body :
    Instr.wellFormed Params.default (.tftpOther 1 0x0005 [0x00]) = false ∧
    Instr.wellFormed Params.default (.tftpOther 1 0x0005 [0x00, 0x00]) = true := by decide

theorem test_wf_tbyteLower_low :
    Instr.wellFormed Params.default (.tbyteLower 1 0x60) = false ∧
    Instr.wellFormed Params.default (.tbyteLower 1 0x61) = true := by decide

theorem test_wf_tbyteLower_high :
    Instr.wellFormed Params.default (.tbyteLower 1 0x7B) = false ∧
    Instr.wellFormed Params.default (.tbyteLower 1 0x7A) = true := by decide

theorem test_wf_tbytePass_etx :
    Instr.wellFormed Params.default (.tbytePass 1 0x03) = false ∧
    Instr.wellFormed Params.default (.tbytePass 1 0x04) = true := by decide

theorem test_wf_tbytePass_lower :
    Instr.wellFormed Params.default (.tbytePass 1 0x61) = false ∧
    Instr.wellFormed Params.default (.tbytePass 1 0x60) = true := by decide

theorem test_wf_tbytePass_lf :
    Instr.wellFormed Params.default (.tbytePass 1 0x0A) = false ∧
    Instr.wellFormed Params.default (.tbytePass 1 0x0D) = true := by decide

theorem test_wf_tbytePass_del :
    Instr.wellFormed Params.default (.tbytePass 1 0x7F) = false ∧
    Instr.wellFormed Params.default (.tbytePass 1 0x80) = true := by decide

/-! ## Decoding: each operation from its stimulus or call, written out from the formats of 30_encoding.md R70 to R75 -/

/-- Row RD.RAM, mask 0x1F000: bit 16 clear, bits 15..12 = 4. -/
theorem test_decode_rdRam :
    decode Params.default (.bus (.rd 0x4FFF)) = .rdRam 0x4FFF ∧
    decodeTableWord 17 0x04FFF = some (.rdRam 0x4FFF) := by decide

/-- Row WR.RAM: bit 16 set. -/
theorem test_decode_wrRam :
    decode Params.default (.bus (.wr 0x1234 0x5A)) = .wrRam 0x1234 0x5A ∧
    decodeTableWord 17 0x11234 = some (.wrRam 0x1234 0x00) := by decide

/-- Row RD.ALIAS: bits 15..12 = 0xE. -/
theorem test_decode_rdAlias :
    decode Params.default (.bus (.rd 0xE000)) = .rdAlias 0x000 ∧
    decodeTableWord 17 0x0EFFF = some (.rdAlias 0xFFF) := by decide

theorem test_decode_wrAlias :
    decode Params.default (.bus (.wr 0xE123 0x77)) = .wrAlias 0x123 0x77 ∧
    decodeTableWord 17 0x1E123 = some (.wrAlias 0x123 0x00) := by decide

/-- Sub-offset 0. -/
theorem test_decode_rdKbd :
    decode Params.default (.bus (.rd 0xD010)) = .rdKbd ∧
    decodeTableWord 17 0x0D010 = some .rdKbd := by decide

/-- Sub-offset 1. -/
theorem test_decode_rdKbdcr :
    decode Params.default (.bus (.rd 0xD011)) = .rdKbdcr ∧
    decodeTableWord 17 0x0D011 = some .rdKbdcr := by decide

/-- Sub-offset 2. -/
theorem test_decode_rdDsp :
    decode Params.default (.bus (.rd 0xD012)) = .rdDsp ∧
    decodeTableWord 17 0x0D012 = some .rdDsp := by decide

/-- Sub-offset 3. -/
theorem test_decode_rdDspcr :
    decode Params.default (.bus (.rd 0xD013)) = .rdDspcr ∧
    decodeTableWord 17 0x0D013 = some .rdDspcr := by decide

/-- Sub-offsets 4 and 15. -/
theorem test_decode_rdIox :
    decode Params.default (.bus (.rd 0xD014)) = .rdIox 4 ∧
    decodeTableWord 17 0x0D01F = some (.rdIox 15) := by decide

theorem test_decode_wrDsp :
    decode Params.default (.bus (.wr 0xD012 0xC1)) = .wrDsp 0xC1 ∧
    decodeTableWord 17 0x1D012 = some (.wrDsp 0x00) := by decide

theorem test_decode_wrIox :
    decode Params.default (.bus (.wr 0xD010 0x55)) = .wrIox 0 0x55 ∧
    decodeTableWord 17 0x1D01F = some (.wrIox 15 0x00) := by decide

/-- Row RD.ROM: bits 15..8 = 0xFF. -/
theorem test_decode_rdRom :
    decode Params.default (.bus (.rd 0xFF10)) = .rdRom 0x10 ∧
    decodeTableWord 17 0x0FFFF = some (.rdRom 0xFF) := by decide

theorem test_decode_wrRom :
    decode Params.default (.bus (.wr 0xFF10 0x01)) = .wrRom 0x10 0x01 ∧
    decodeTableWord 17 0x1FF00 = some (.wrRom 0x00 0x00) := by decide

/-- Either side of the I/O window. -/
theorem test_decode_rdNone :
    decode Params.default (.bus (.rd 0xD00F)) = .rdNone 0xD00F ∧
    decodeTableWord 17 0x0D020 = some (.rdNone 0xD020) := by decide

/-- Either side of the alias window. -/
theorem test_decode_wrNone :
    decode Params.default (.bus (.wr 0xF000 0x01)) = .wrNone 0xF000 0x01 ∧
    decodeTableWord 17 0x1DFFF = some (.wrNone 0xDFFF 0x00) := by decide

theorem test_decode_deposit :
    decodeCall (.deposit 0x41) = .deposit 0x41 := by decide

theorem test_decode_putc :
    decodeCall (.putc 0x41) = .putc 0x41 := by decide

theorem test_decode_blink :
    decode Params.default (.evt .blink) = .blink := by decide

/-- The arguments x then y (R75). -/
theorem test_decode_setcur :
    decodeCall (.setcur 0x02 0x1E) = .setcur 0x02 0x1E := by decide

theorem test_decode_cls :
    decodeCall .cls = .cls := by decide

/-- Vector F-1: three bytes. -/
theorem test_decode_tftpShort :
    decode Params.default (.udp 1 [0x00, 0x03, 0x00]) = .tftpShort 1 [0x00, 0x03, 0x00] := by decide

theorem test_decode_tftpWrq :
    decode Params.default (.udp 1 [0x00, 0x02, 0x61, 0x2E]) = .tftpWrq 1 [0x61, 0x2E] ∧
    decodeTableWord 16 0x0002 = some (.tftpWrq 0 [0x00, 0x00]) := by decide

theorem test_decode_tftpData :
    decode Params.default (.udp 2 [0x00, 0x03, 0x12, 0x34, 0x99]) = .tftpData 2 0x12 0x34 [0x99] ∧
    decodeTableWord 16 0x0003 = some (.tftpData 0 0x00 0x00 []) := by decide

/-- Vector F-10: the high byte counts. -/
theorem test_decode_tftpOther :
    decode Params.default (.udp 1 [0x03, 0x00, 0x00, 0x01, 0x09]) = .tftpOther 1 0x0300 [0x00, 0x01, 0x09] ∧
    decodeTableWord 16 0x0103 = some (.tftpOther 0 0x0103 [0x00, 0x00]) := by decide

theorem test_decode_connect :
    decode Params.default (.tcpc 7) = .connect 7 := by decide

theorem test_decode_tbyteEtx :
    decode Params.default (.tcpb 2 0x03) = .tbyteEtx 2 ∧
    decodeTableWord 8 0x03 = some (.tbyteEtx 0) := by decide

theorem test_decode_tbyteLower :
    decode Params.default (.tcpb 1 0x61) = .tbyteLower 1 0x61 ∧
    decodeTableWord 8 0x7A = some (.tbyteLower 0 0x7A) := by decide

theorem test_decode_tbyteLf :
    decode Params.default (.tcpb 1 0x0A) = .tbyteLf 1 ∧
    decodeTableWord 8 0x0A = some (.tbyteLf 0) := by decide

theorem test_decode_tbyteDel :
    decode Params.default (.tcpb 1 0x7F) = .tbyteDel 1 ∧
    decodeTableWord 8 0x7F = some (.tbyteDel 0) := by decide

/-- An accented letter is no lower-case letter (44_telnet.md, table of classes). -/
theorem test_decode_tbytePass :
    decode Params.default (.tcpb 1 0xE1) = .tbytePass 1 0xE1 ∧
    decodeTableWord 8 0x60 = some (.tbytePass 0 0x60) := by decide

theorem test_decode_tick :
    decode Params.default (.evt .tick) = .tick := by decide

theorem test_decode_reset :
    decodeCall .reset = .reset := by decide

theorem test_decode_poweron :
    decode Params.default (.evt .poweron) = .poweron := by decide

/-- A format without a word, and values wider than the words. -/
theorem test_decode_noWord :
    decodeTableWord 0 0 = none ∧ decodeTableWord 25 0 = none ∧ decodeTableWord 24 0x20000 = none := by decide

/-- Another `IO_BASE`: the lowest that R4 allows. -/
theorem test_decode_parameters :
    decode paramsLowIo (.bus (.rd 0x5001)) = .rdKbdcr ∧ region Params.default 0x5001 = .unmapped := by decide

/-! ## One step each, with the expected results of 95_test_vectors.md -/

/-- Vector B7. -/
theorem test_step_rdRam :
    after (on (withPointer 0x00 0xE0) (.bus (.rd 0x0027)))
      (fun t => t.replies) = some [0xE0] := by decide

/-- Vector B1: only its cell. -/
theorem test_step_wrRam :
    after (on State.reset (.bus (.wr 0x1234 0x5A)))
      (fun t => (t.ram, t.replies)) = some ([(0x1234, 0x5A)], []) := by decide

/-- Vector L1-1, the last cell. -/
theorem test_step_wrRam_last :
    after (on State.reset (.bus (.wr 0x4FFF 0x11)))
      (fun t => (t.ram.read 0x4FFF, t.ram.read 0x0FFF)) = some (0x11, 0xFF) := by decide

/-- Vector B2. -/
theorem test_step_rdAlias :
    after (on { State.reset with ram := [(0x4123, 0x77)] } (.bus (.rd 0xE123)))
      (fun t => t.replies) = some [0x77] := by decide

/-- Vector B2. -/
theorem test_step_wrAlias :
    after (on State.reset (.bus (.wr 0xE123 0x77)))
      (fun t => t.ram) = some [(0x4123, 0x77)] := by decide

/-- Vector L1-2, the last cell of the window. -/
theorem test_step_wrAlias_last :
    after (on State.reset (.bus (.wr 0xEFFF 0x11)))
      (fun t => t.ram) = some [(0x4FFF, 0x11)] := by decide

/-- Vector P-2: the key, kept, and the flag cleared. -/
theorem test_step_rdKbd :
    after (on { State.reset with kbd := 0xC1, kbdcr := 0xFF } (.bus (.rd 0xD010)))
      (fun t => (t.replies, t.kbd, t.kbdcr)) = some ([0xC1], 0xC1, 0x00) := by decide

/-- Vector P-2: the flag, not cleared. -/
theorem test_step_rdKbdcr :
    after (on { State.reset with kbd := 0xC1, kbdcr := 0xFF } (.bus (.rd 0xD011)))
      (fun t => (t.replies, t.kbdcr)) = some ([0xFF], 0xFF) := by decide

/-- `STORED` (R123): the register. -/
theorem test_step_rdDsp :
    after (on { State.reset with params := paramsWith .stored, dsp := 0xC1 } (.bus (.rd 0xD012)))
      (fun t => (t.replies, t.draws)) = some ([0xC1], 0) := by decide

/-- Vector P-1: `any8`, one draw. -/
theorem test_step_rdDsp_any :
    after (on State.reset (.bus (.rd 0xD012)))
      (fun t => (t.replies.length, t.draws)) = some (1, 1) := by decide

/-- Vector P-1. -/
theorem test_step_rdDspcr :
    after (on State.reset (.bus (.rd 0xD013)))
      (fun t => t.replies) = some [0x00] := by decide

/-- Region table: `any8`. -/
theorem test_step_rdIox :
    after (on State.reset (.bus (.rd 0xD01F)))
      (fun t => (t.replies.length, t.draws)) = some (1, 1) := by decide

/-- Vector P-6, first line. -/
theorem test_step_wrDsp :
    after (on State.reset (.bus (.wr 0xD012 0xC1)))
      (fun t => (t.dsp, t.cell.code 0 0, t.col, t.row)) = some (0xC1, 0x01, 1, 0) := by decide

/-- Vector P-6: 0x0D reaches the terminal as 0x8D. -/
theorem test_step_wrDsp_control :
    after (on (atCursor 2 1) (.bus (.wr 0xD012 0x0D)))
      (fun t => (t.dsp, t.col, t.row)) = some (0x0D, 2, 1) := by decide

/-- Vector P-7. -/
theorem test_step_wrIox :
    after (on { State.reset with kbd := 0xC1, kbdcr := 0xFF } (.bus (.wr 0xD011 0x00)))
      (fun t => (t.kbdcr, t.kbd, t.dspcr)) = some (0xFF, 0xC1, 0x00) := by decide

/-- Vector L1-3. -/
theorem test_step_rdRom :
    after (on State.reset (.bus (.rd 0xFF10)))
      (fun t => t.replies) = some [0xB0] := by decide

/-- Region table, the last index. -/
theorem test_step_rdRom_last :
    after (on State.reset (.bus (.rd 0xFFFF)))
      (fun t => t.replies) = some [0x9F] := by decide

/-- Vector B6. -/
theorem test_step_wrRom :
    after (on State.reset (.bus (.wr 0xFFFF 0x00)))
      (fun t => (t.params.rom[0xFF], t.ram)) = some (0x9F, []) := by decide

/-- Vector B5. -/
theorem test_step_rdNone :
    after (on State.reset (.bus (.rd 0x5000)))
      (fun t => t.replies) = some [0xFF] := by decide

/-- Vector B5: no wrap into RAM. -/
theorem test_step_wrNone :
    after (on State.reset (.bus (.wr 0x5000 0x12)))
      (fun t => (t.ram, t.replies)) = some ([], []) := by decide

/-- Vector P-3. -/
theorem test_call_deposit :
    after (exec (decodeCall (.deposit 0x00)) State.reset)
      (fun t => (t.kbd, t.kbdcr)) = some (0x80, 0xFF) := by decide

/-- Vector L1-4, the 41st character. -/
theorem test_call_putc_wrap :
    after (exec (decodeCall (.putc 0x5A)) (atCursor 40 0))
      (fun t => (t.cell.code 1 0, t.cell.code 0 39, t.col, t.row)) = some (0x1A, 0x20, 1, 1) := by decide

/-- Vector L1-6. -/
theorem test_call_putc_scroll :
    after (exec (decodeCall (.putc 0x2A)) { atCursor 40 23 with cell := Grid.blank.put 23 0 0x18 })
      (fun t => (t.cell.code 22 0, t.cell.code 23 0, t.cell.code 23 1, t.col, t.row)) = some (0x18, 0x2A, 0x20, 1, 23) := by decide

/-- Vector T-10, at the home cell. -/
theorem test_step_blink :
    after (on State.reset (.evt .blink))
      (fun t => (t.vis, t.view 0 0, t.cell.code 0 0)) = some (true, 0x00, 0x20) := by decide

/-- Vector T-8. -/
theorem test_call_setcur :
    after (exec (decodeCall (.setcur 0xFF 0x03)) (atCursor 5 7))
      (fun t => (t.col, t.row)) = some (39, 3) := by decide

/-- Vector T-8, y out of range. -/
theorem test_call_setcur_row :
    after (exec (decodeCall (.setcur 0x05 0x18)) (atCursor 5 7))
      (fun t => (t.col, t.row)) = some (23, 7) := by decide

/-- Vector T-9. -/
theorem test_call_cls :
    after (exec (decodeCall .cls) { atCursor 17 23 with cell := Grid.blank.put 2 19 0x01 })
      (fun t => (t.cell.code 2 19, t.col, t.row, t.dis)) = some (0x20, 0, 0, false) := by decide

/-- Vector F-1. -/
theorem test_step_tftpShort :
    after (on (withPointer 0x34 0x12) (.udp 1 [0x00, 0x02, 0x00]))
      (fun t => (t.tcur, t.out)) = some (0x0000, [.cpuReset]) := by decide

/-- Vector F-1. -/
theorem test_step_tftpWrq :
    after (on (withPointer 0x34 0x12) (.udp 1 [0x00, 0x02, 0x00, 0x00]))
      (fun t => (t.tcur, t.out)) = some (0x1234, [.cpuReset]) := by decide

/-- Vector F-6. -/
theorem test_step_tftpWrq_window :
    after (on (withPointer 0xFF 0xEF) (.udp 1 [0x00, 0x02, 0x00, 0x00]))
      (fun t => t.tcur) = some 0x4FFF := by decide

/-- Vector F-2. -/
theorem test_step_tftpData :
    after (on State.reset (.udp 1 [0x00, 0x03, 0x00, 0x01, 0xAA, 0xBB]))
      (fun t => (t.ram, t.tcur, t.out)) = some ([(0, 0xAA), (1, 0xBB)], 0x0002, [.cpuReset, .udp 1 [0x00, 0x04, 0x00, 0x01]]) := by decide

/-- Vector F-7. -/
theorem test_step_tftpData_range :
    stops (on { State.reset with tcur := 0x4FFE } (.udp 1 [0x00, 0x03, 0x00, 0x01, 0x01, 0x02, 0x03])) = true := by decide

/-- Vector F-10. -/
theorem test_step_tftpOther :
    after (on { State.reset with tcur := 0x0100 } (.udp 1 [0x01, 0x03, 0x00, 0x01, 0x09]))
      (fun t => (t.ram, t.tcur, t.out)) = some ([], 0x0100, [.cpuReset]) := by decide

/-- Vector L1-10. -/
theorem test_step_connect :
    after (on State.reset (.tcpc 1))
      (fun t => t.out) = some [.cpuReset, .tcp 1 [0x57, 0x65, 0x6C, 0x63, 0x6F, 0x6D, 0x65, 0x20, 0x74, 0x6F, 0x20, 0x45,
      0x73, 0x70, 0x70, 0x6C, 0x65, 0x21, 0x0A, 0xFF, 0xFD, 0x22, 0xFF, 0xFB, 0x01]] := by decide

/-- Program P5, line 7. -/
theorem test_step_tbyteEtx :
    after (on { State.reset with ram := [(0x0200, 0x01)], col := 1 } (.tcpb 2 0x03))
      (fun t => (t.ram, t.col, t.out)) = some ([], 0, [.cpuReset, .cpuReset]) := by decide

/-- Program P5, line 7: what a reset leaves. -/
theorem test_step_tbyteEtx_keeps :
    after (on { State.reset with kbd := 0xD8, kbdcr := 0xFF, dsp := 0xC1, vis := true, tcur := 0x0204 } (.tcpb 2 0x03))
      (fun t => (t.kbd, t.kbdcr, t.dsp, t.vis, t.tcur)) = some (0xD8, 0xFF, 0xC1, true, 0x0204) := by decide

/-- Vector L1-7. -/
theorem test_step_tbyteLower :
    after (on State.reset (.tcpb 1 0x61))
      (fun t => (t.kbd, t.kbdcr)) = some (0xC1, 0xFF) := by decide

/-- Program P2, line 7. -/
theorem test_step_tbyteLf :
    after (on State.reset (.tcpb 1 0x0A))
      (fun t => (t.kbd, t.kbdcr)) = some (0x8D, 0xFF) := by decide

/-- Program P2, line 9. -/
theorem test_step_tbyteDel :
    after (on State.reset (.tcpb 1 0x7F))
      (fun t => (t.kbd, t.kbdcr)) = some (0xDF, 0xFF) := by decide

/-- Table of 95_test_vectors.md section 2.5, just above the lower-case letters. -/
theorem test_step_tbytePass :
    after (on State.reset (.tcpb 1 0x7B))
      (fun t => (t.kbd, t.kbdcr)) = some (0xFB, 0xFF) := by decide

/-- 45_scheduler.md R210: one batch in order, the rest left for the next tick. -/
theorem test_step_tick :
    after (on { State.reset with cpu := .txn (.wr 0x0300 0xA9) (.txn (.rd 0x0300) (.endTick (.txn (.rd 0xD011) .halt))) } (.evt .tick))
      (fun t => (t.ram, t.replies, t.cpu)) = some ([(0x0300, 0xA9)], [0xA9], .txn (.rd 0xD011) .halt) := by decide

/-- Program P2, lines 4 and 5, in one tick: the CPU reads the key because the flag it read was set. -/
theorem test_step_tick_poll :
    after (on { State.reset with kbd := 0xC9, kbdcr := 0xFF, cpu := .txn (.rd 0xD011) (.ifByte 0xFF (.txn (.rd 0xD010) .halt) .halt) } (.evt .tick))
      (fun t => (t.replies, t.kbdcr)) = some ([0xFF, 0xC9], 0x00) := by decide

/-- Vector Z-2. -/
theorem test_call_reset :
    after (exec (decodeCall .reset) { State.reset with ram := [(0x0026, 0x00)], dsp := 0xC1, row := 9 })
      (fun t => (t.ram, t.dsp, t.row, t.out)) = some ([], 0xC1, 0, [.cpuReset, .cpuReset]) := by decide

/-- Vector Z-1. -/
theorem test_step_poweron :
    after (on { State.reset with ram := [(0x0026, 0x00)], kbd := 0xC1, kbdcr := 0xFF, vis := true, tcur := 0x0204 } (.evt .poweron))
      (fun t => (t.ram, t.kbd, t.kbdcr, t.vis, t.tcur)) = some ([], 0x00, 0x00, false, 0x0000) := by decide

/-- A word placed for the next step runs as the first operation after reset. -/
theorem test_step_fetchWord :
    after (step (State.reset.withFetchWord 8 0x7F)) (fun t => (t.kbd, t.inbox)) = some (0xDF, []) := by decide

/-- Nothing waits: nothing changes. -/
theorem test_step_idle :
    after (step State.reset) (fun t => (t.out, t.draws)) = some ([.cpuReset], 0) := by decide

/-! ## Witnesses: for every obligation with hypotheses, data that meet them, at the boundaries of each clause -/

theorem test_witness_DecodeOfEncode :
    Instr.wellFormed Params.default (.rdIox 15) = true ∧
    Instr.wellFormed Params.default (.rdNone 0x5000) = true ∧
    Instr.wellFormed Params.default (.tftpShort 1 []) = true ∧
    Instr.wellFormed Params.default (.tftpOther 1 0xFFFF [0xFF, 0xFF]) = true ∧
    Instr.wellFormed Params.default (.tbytePass 1 0xFF) = true := by decide

theorem test_witness_BusAddressSelectsOperation :
    (0x4FFF : Addr).toNat = (0x4FFF : RamIndex).val ∧
    (0xE000 : Addr).toNat = Params.default.aliasBase + (0 : Fin 0x1000).val ∧
    (0xEFFF : Addr).toNat = Params.default.aliasBase + (0xFFF : Fin 0x1000).val ∧
    (0xD010 : Addr).toNat = Params.default.ioBase ∧ (0xD011 : Addr).toNat = Params.default.ioBase + 1 ∧
    (0xD012 : Addr).toNat = Params.default.ioBase + 2 ∧ (0xD013 : Addr).toNat = Params.default.ioBase + 3 ∧
    ((0xD014 : Addr).toNat = Params.default.ioBase + (4 : Fin 16).val ∧ 4 ≤ (4 : Fin 16).val) ∧
    ((0xD011 : Addr).toNat = Params.default.ioBase + (1 : Fin 16).val ∧ (1 : Fin 16).val ≠ 2) ∧
    (0xFF00 : Addr).toNat = 0xFF00 + (0 : Fin 256).val ∧ (0xFFFF : Addr).toNat = 0xFF00 + (255 : Fin 256).val := by decide

theorem test_witness_BusAddressSelectsOperation_unmapped :
    (0x5000 ≤ (0x5000 : Addr).toNat ∧
      ((0x5000 : Addr).toNat < Params.default.aliasBase ∨ Params.default.aliasBase + 0x1000 ≤ (0x5000 : Addr).toNat) ∧
      ((0x5000 : Addr).toNat < Params.default.ioBase ∨ Params.default.ioBase + 16 ≤ (0x5000 : Addr).toNat) ∧
      (0x5000 : Addr).toNat < 0xFF00) ∧
    (0x5000 ≤ (0xFEFF : Addr).toNat ∧
      ((0xFEFF : Addr).toNat < Params.default.aliasBase ∨ Params.default.aliasBase + 0x1000 ≤ (0xFEFF : Addr).toNat) ∧
      ((0xFEFF : Addr).toNat < Params.default.ioBase ∨ Params.default.ioBase + 16 ≤ (0xFEFF : Addr).toNat) ∧
      (0xFEFF : Addr).toNat < 0xFF00) := by decide

theorem test_witness_DatagramSelectsOperation :
    ([0x00, 0x02, 0x00] : List Byte).length < 4 ∧
    (0x00 : Byte).toNat * 256 + (0x02 : Byte).toNat = 2 ∧ (0x00 : Byte).toNat * 256 + (0x03 : Byte).toNat = 3 ∧
    ((0x03 : Byte).toNat * 256 + (0x00 : Byte).toNat ≠ 2 ∧ (0x03 : Byte).toNat * 256 + (0x00 : Byte).toNat ≠ 3) := by decide

theorem test_witness_ByteSelectsOperation :
    (0x61 ≤ (0x61 : Byte).toNat ∧ (0x61 : Byte).toNat ≤ 0x7A) ∧ (0x61 ≤ (0x7A : Byte).toNat ∧ (0x7A : Byte).toNat ≤ 0x7A) ∧
    ((0x60 : Byte) ≠ 0x03 ∧ (0x60 : Byte).toNat < 0x61 ∧ (0x60 : Byte) ≠ 0x0A ∧ (0x60 : Byte) ≠ 0x7F) ∧
    ((0x7B : Byte) ≠ 0x03 ∧ 0x7A < (0x7B : Byte).toNat ∧ (0x7B : Byte) ≠ 0x0A ∧ (0x7B : Byte) ≠ 0x7F) := by decide

theorem test_witness_TableDecodesAsRanges :
    0x1FFFF < 2 ^ 17 ∧ 0xFFFF < 2 ^ 16 ∧ 0xFF < 2 ^ 8 := by decide

theorem test_witness_StepRunsDecoded :
    State.reset.inbox = [] ∧ (State.reset.deliver (.tcpb 1 0x61)).inbox = [.tcpb 1 0x61] := by decide

theorem test_witness_FetchWordRunsNext :
    wordStimulus 17 0x1FFFF = some (.bus (.wr 0xFFFF 0x00)) ∧
    wordStimulus 16 0xFFFF = some (.udp 0 [0xFF, 0xFF, 0x00, 0x00]) ∧ wordStimulus 8 0xFF = some (.tcpb 0 0xFF) := by decide

theorem test_witness_RamWriteResult :
    Params.default.aliasTarget + (0 : Fin 0x1000).val = (0x4000 : RamIndex).val ∧
    Params.default.aliasTarget + (0xFFF : Fin 0x1000).val = (0x4FFF : RamIndex).val := by decide

theorem test_witness_AliasWindowResult :
    (0xEFFF : Addr).toNat = Params.default.aliasBase + (0xFFF : Fin 0x1000).val ∧
    (0x4FFF : RamIndex).val = Params.default.aliasTarget + (0xFFF : Fin 0x1000).val := by decide

theorem test_witness_AliasTransactionIsRamTransaction :
    (Params.default.aliasBase ≤ (0xE000 : Addr).toNat ∧ (0xE000 : Addr).toNat < Params.default.aliasBase + 0x1000 ∧
      (0x4000 : Addr).toNat = (0xE000 : Addr).toNat - Params.default.aliasBase + Params.default.aliasTarget) ∧
    (Params.default.aliasBase ≤ (0xEFFF : Addr).toNat ∧ (0xEFFF : Addr).toNat < Params.default.aliasBase + 0x1000 ∧
      (0x4FFF : Addr).toNat = (0xEFFF : Addr).toNat - Params.default.aliasBase + Params.default.aliasTarget) := by decide

theorem test_witness_RomWindowResult :
    (0xFF00 : Addr).toNat = 0xFF00 + (0 : Fin 256).val ∧ (0xFFFF : Addr).toNat = 0xFF00 + (255 : Fin 256).val ∧
    ∃ t : State, execAll [.wrRom 0x10 0x00, .reset] State.reset = .next t := ⟨rfl, rfl, _, rfl⟩

theorem test_witness_RamReadResult :
    (0x4FFF : Addr).toNat = (0x4FFF : RamIndex).val ∧ (0x0000 : Addr).toNat = (0 : RamIndex).val := by decide

theorem test_witness_UnmappedResult :
    (0x5000 ≤ (0x5000 : Addr).toNat ∧ (0x5000 : Addr).toNat < State.reset.params.aliasBase ∧
      (0x5000 : Addr).toNat < State.reset.params.ioBase ∧ (0x5000 : Addr).toNat < 0xFF00) ∧
    (0x5000 ≤ (0xF000 : Addr).toNat ∧ State.reset.params.aliasBase + 0x1000 ≤ (0xF000 : Addr).toNat ∧
      State.reset.params.ioBase + 16 ≤ (0xF000 : Addr).toNat ∧ (0xF000 : Addr).toNat < 0xFF00) := by decide

theorem test_witness_DepositResult :
    (0x8D : Byte).getLsbD 7 = true := by decide

theorem test_witness_ReceivedByteResult :
    (0x61 ≤ (0x61 : Byte).toNat ∧ (0x61 : Byte).toNat ≤ 0x7A) ∧ 0x61 ≤ (0x7A : Byte).toNat ∧ (0x7A : Byte).toNat ≤ 0x7A ∧
    ((0x04 : Byte) ≠ 0x03 ∧ (0x04 : Byte).toNat < 0x61 ∧ (0x04 : Byte) ≠ 0x0A ∧ (0x04 : Byte) ≠ 0x7F) ∧
    ((0x80 : Byte) ≠ 0x03 ∧ 0x7A < (0x80 : Byte).toNat ∧ (0x80 : Byte) ≠ 0x0A ∧ (0x80 : Byte) ≠ 0x7F) := by decide

theorem test_witness_BusReadReach :
    (0xD010 : Addr).toNat = State.reset.params.ioBase ∧ (0xD011 : Addr).toNat ≠ State.reset.params.ioBase ∧
    (0xD011 : Addr).toNat < State.reset.params.ioBase + 2 ∧ State.reset.params.ioBase + 16 ≤ (0xD020 : Addr).toNat := by decide

theorem test_witness_BusWriteReach :
    (0xD011 : Addr).toNat ≠ State.reset.params.ioBase + 2 ∧ (0xD012 : Addr).toNat = State.reset.params.ioBase + 2 ∧
    busCell State.reset.params 0xEFFF = some 0x4FFF ∧ busCell State.reset.params 0x5000 = none := by decide

theorem test_witness_DisplayReadResult :
    State.reset.params.dspReadback = .any ∧
    ({ State.reset with params := paramsWith .stored } : State).params.dspReadback = .stored ∧
    ({ State.reset with params := paramsWith .zero } : State).params.dspReadback = .zero := by decide

/-- Vector L1-9. -/
theorem test_witness_MailboxKeepsLastKey :
    (0x41 : Byte) ≠ 0x03 ∧ (0x42 : Byte) ≠ 0x03 ∧ (0xD010 : Addr).toNat = State.reset.params.ioBase ∧
    (0xD011 : Addr).toNat = State.reset.params.ioBase + 1 ∧
    ({ State.reset with inbox := [.tcpb 1 0x41, .tcpb 1 0x42, .bus (.rd 0xD011), .bus (.rd 0xD010), .bus (.rd 0xD011)] } :
      State).inbox = .tcpb 1 0x41 :: .tcpb 1 0x42 :: .bus (.rd 0xD011) :: .bus (.rd 0xD010) :: .bus (.rd 0xD011) :: [] := by decide

theorem test_witness_PutcResult :
    (0x20 ≤ (0x20 : Byte).toNat ∧ (0x20 : Byte).toNat ≤ 0x7E) ∧ (0x20 ≤ (0x7E : Byte).toNat ∧ (0x7E : Byte).toNat ≤ 0x7E) ∧
    ¬ (0x20 ≤ (0x1F : Byte).toNat ∧ (0x1F : Byte).toNat ≤ 0x7E) ∧ ¬ (0x20 ≤ (0x7F : Byte).toNat ∧ (0x7F : Byte).toNat ≤ 0x7E) ∧
    (atCursor 40 23).col.val = 40 ∧ (atCursor 40 23).row.val = 23 ∧ (atCursor 39 22).col.val ≠ 40 := by decide

/-- The row, column and cells between the two steps exist. -/
theorem test_witness_PutcResult_newLine :
    ∃ (row1 col1 : Nat) (cell1 : Fin 24 → Fin 40 → Code),
    row1 = (if (atCursor 40 23).col.val = 40 ∨ (0x41 : Byte) = 0x0D ∨ (0x41 : Byte) = 0x0A
      then min ((atCursor 40 23).row.val + 1) 23 else (atCursor 40 23).row.val) ∧
    col1 = (if (atCursor 40 23).col.val = 40 ∨ (0x41 : Byte) = 0x0D ∨ (0x41 : Byte) = 0x0A
      then 0 else (atCursor 40 23).col.val) ∧
    ∀ r c, cell1 r c =
      if ((atCursor 40 23).col.val = 40 ∨ (0x41 : Byte) = 0x0D ∨ (0x41 : Byte) = 0x0A) ∧ (atCursor 40 23).row.val = 23 then
        if h : r.val < 23 then (atCursor 40 23).cell.code ⟨r.val + 1, by omega⟩ c else 0x20
      else (atCursor 40 23).cell.code r c := ⟨_, _, _, rfl, rfl, fun _ _ => rfl⟩

theorem test_witness_PrintedRow :
    (List.replicate 40 (0x41 : Byte)).length ≤ 40 ∧ (∀ b ∈ List.replicate 40 (0x41 : Byte), isPrintable b = true) ∧
    State.reset.col.val = 0 := by decide

theorem test_witness_WrapAfterFullRow :
    isPrintable 0x7E = true ∧ (atCursor 40 22).col.val = 40 ∧ (atCursor 40 22).row.val < 23 ∧
    (atCursor 40 23).col.val = 40 ∧ (atCursor 40 23).row.val = 23 := by decide

theorem test_witness_NewLineAndIgnoredBytes :
    (isPrintable 0x1F = false ∧ (0x1F : Byte) ≠ 0x0D ∧ (0x1F : Byte) ≠ 0x0A) ∧
    (isPrintable 0x7F = false ∧ (0x7F : Byte) ≠ 0x0D ∧ (0x7F : Byte) ≠ 0x0A) ∧ (atCursor 39 23).col.val ≤ 39 := by decide

theorem test_witness_ScrollsFollowByteClasses :
    (atCursor 39 23).col = ({ atCursor 39 23 with cell := Grid.blank.put 0 0 0x01 } : State).col ∧
    (atCursor 39 23).row = ({ atCursor 39 23 with cell := Grid.blank.put 0 0 0x01 } : State).row ∧
    ([0x41, 0x7E, 0x0D, 0x7F] : List Byte).map putcClass = ([0x20, 0x5A, 0x0A, 0x00] : List Byte).map putcClass ∧
    (atCursor 40 23).scrollsOn 0x07 = true ∧ (atCursor 39 23).scrollsOn 0x41 = false ∧ (atCursor 40 22).scrollsOn 0x41 = false := by decide

/-- L1-6 and T-6: the pending wrap on the last row and the new line scroll once each. -/
theorem test_scrollCount :
    scrollCount [0x41, 0x0D, 0x42] (atCursor 40 23) = 2 := by decide

theorem test_witness_SetcurResult :
    (0x17 : Byte).toNat < 24 ∧ 24 ≤ (0x18 : Byte).toNat := by decide

theorem test_witness_ViewRule :
    ({ State.reset with vis := true } : State).vis = true ∧ ({ State.reset with vis := true } : State).dis = false ∧
    (0 : Fin 24) = ({ State.reset with vis := true } : State).row ∧
    (0 : Fin 40).val = ({ State.reset with vis := true } : State).col.val ∧
    State.reset.vis = false ∧ (atCursor 40 0).col.val = 40 := by decide

theorem test_witness_IgnoredDatagramResult :
    ([0x00, 0x03, 0x00] : List Byte).length < 4 ∧
    (¬ ((0x00 : Byte) = 0x00 ∧ (0x01 : Byte) = 0x02) ∧ ¬ ((0x00 : Byte) = 0x00 ∧ (0x01 : Byte) = 0x03)) ∧
    (¬ ((0x03 : Byte) = 0x00 ∧ (0x00 : Byte) = 0x02) ∧ ¬ ((0x03 : Byte) = 0x00 ∧ (0x00 : Byte) = 0x03)) := by decide

theorem test_witness_WriteRequestResult :
    ((withPointer 0xFF 0xEF).ram.read 0x26).toNat + 256 * ((withPointer 0xFF 0xEF).ram.read 0x27).toNat = 0xEFFF ∧
    ((withPointer 0xFF 0xEF).params.aliasBase ≤ 0xEFFF ∧ 0xEFFF < (withPointer 0xFF 0xEF).params.aliasBase + 0x1000) ∧
    ((withPointer 0xFF 0xDF).ram.read 0x26).toNat + 256 * ((withPointer 0xFF 0xDF).ram.read 0x27).toNat = 0xDFFF ∧
    ¬ ((withPointer 0xFF 0xDF).params.aliasBase ≤ 0xDFFF ∧ 0xDFFF < (withPointer 0xFF 0xDF).params.aliasBase + 0x1000) := by decide

/-- Vectors F-5 and F-7. -/
theorem test_witness_DataPacketResult :
    ([] : List Byte).length = 0 ∧
    ({ State.reset with tcur := 0x4FFE } : State).tcur.toNat + ([0x01, 0x02] : List Byte).length ≤ 0x5000 := by decide

/-- Vector F-7. -/
theorem test_witness_DataPastRamStops :
    0 < ([0x01, 0x02, 0x03] : List Byte).length ∧
    0x5000 < ({ State.reset with tcur := 0x4FFE } : State).tcur.toNat + ([0x01, 0x02, 0x03] : List Byte).length := by decide

/-- Vector F-6. -/
theorem test_witness_LoadLandsAtPointer :
    0xEFFF = ((withPointer 0xFF 0xEF).ram.read 0x26).toNat + 256 * ((withPointer 0xFF 0xEF).ram.read 0x27).toNat ∧
    0x4FFF = (if (withPointer 0xFF 0xEF).params.aliasBase ≤ 0xEFFF ∧ 0xEFFF < (withPointer 0xFF 0xEF).params.aliasBase + 0x1000
      then 0xEFFF - (withPointer 0xFF 0xEF).params.aliasBase + (withPointer 0xFF 0xEF).params.aliasTarget else 0xEFFF) ∧
    0x4FFF + ([0x42] : List Byte).length ≤ 0x5000 ∧
    ({ withPointer 0xFF 0xEF with
      inbox := [.udp 1 [0x00, 0x02, 0x00, 0x00], .udp 2 [0x00, 0x03, 0x00, 0x01, 0x42]] } : State).inbox =
      .udp 1 (0x00 :: 0x02 :: 0x00 :: 0x00 :: []) :: .udp 2 (0x00 :: 0x03 :: 0x00 :: 0x01 :: [0x42]) :: [] := by decide

theorem test_witness_StreamByteBecomesFilteredKey :
    (0x61 : Byte) ≠ 0x03 ∧ (0x61 ≤ (0x61 : Byte).toNat ∧ (0x61 : Byte).toNat ≤ 0x7A) ∧
    (0x7A : Byte) ≠ 0x03 ∧ (0x61 ≤ (0x7A : Byte).toNat ∧ (0x7A : Byte).toNat ≤ 0x7A) ∧
    (0x0A : Byte) ≠ 0x03 ∧ (0x7F : Byte) ≠ 0x03 ∧ (0x60 : Byte) ≠ 0x03 ∧
    ¬ (0x61 ≤ (0x60 : Byte).toNat ∧ (0x60 : Byte).toNat ≤ 0x7A) ∧ (0x60 : Byte) ≠ 0x0A ∧ (0x60 : Byte) ≠ 0x7F := by decide

theorem test_witness_TickRunsTransactions :
    ({ State.reset with cpu := .txn (.wr 0x0300 0xA9) (.txn (.rd 0x0300) (.endTick .halt)) } : State).cpu =
      List.foldr CpuPlan.txn (.endTick .halt) [.wr 0x0300 0xA9, .rd 0x0300] ∧
    ({ State.reset with cpu := .endTick .halt } : State).cpu = List.foldr CpuPlan.txn (.endTick .halt) [] := by decide

theorem test_witness_TickFollowsPlan :
    State.reset.cpu = .halt ∧ ({ State.reset with cpu := .endTick .halt } : State).cpu = .endTick .halt ∧
    ({ State.reset with cpu := .txn (.wr 0xD012 0xC1) .halt } : State).cpu = .txn (.wr 0xD012 0xC1) .halt ∧
    ({ State.reset with replies := [0xFF], cpu := .ifByte 0xFF .halt (.endTick .halt) } : State).cpu =
      .ifByte 0xFF .halt (.endTick .halt) ∧
    ({ State.reset with replies := [0xFF] } : State).replies.getLast? = some 0xFF ∧ State.reset.replies.getLast? = none := by decide

/-- The returned byte may be the one the plan asks about or another. -/
theorem test_witness_TickFollowsPlan_read :
    (∃ u : State, ({ State.reset with cpu := .txn (.rd 0xD011) (.ifByte 0xFF .halt (.endTick .halt)) } : State).cpu =
      .txn (.rd 0xD011) (.ifByte 0xFF .halt (.endTick .halt)) ∧
      exec (decode State.reset.params (.bus (.rd 0xD011))) { State.reset with
        cpu := .txn (.rd 0xD011) (.ifByte 0xFF .halt (.endTick .halt)) } = .next u ∧ u.replies = [] ++ [0x00]) ∧
    (∃ u : State, exec (decode State.reset.params (.bus (.rd 0xD011))) { State.reset with
        kbdcr := 0xFF, cpu := .txn (.rd 0xD011) (.ifByte 0xFF .halt (.endTick .halt)) } = .next u ∧
      u.replies = [] ++ [0xFF]) := ⟨⟨_, rfl, rfl, rfl⟩, ⟨_, rfl, rfl⟩⟩

theorem test_witness_StepKeepsInv :
    ∃ t : State, State.Inv (State.reset.deliver (.tcpb 1 0x61)) ∧ step (State.reset.deliver (.tcpb 1 0x61)) = .next t := ⟨_, ⟨rfl, .inl rfl, fun h => absurd (show (0x00 : Byte) = 0xFF from h) (by decide), .inl rfl, rfl, rfl⟩, rfl⟩

theorem test_witness_RunsKeepRom :
    ∃ t : State, Host.Core.run core 2 State.reset = .next t := ⟨_, rfl⟩

/-- Each clause about an ending is met, and the four values differ. -/
theorem test_witness_UnreadParametersChangeNothing :
    (∃ t : State, exec (.putc 0x41) State.reset = .next t) ∧
    exec (.tftpData 1 0x00 0x01 [0xAA]) { State.reset with tcur := 0x5000 } = .fault .tftpRange ∧
    (∃ t : State, step (State.reset.deliver (.evt .blink)) = .next t) ∧
    step ({ State.reset with tcur := 0x5000 }.deliver (.udp 1 [0x00, 0x03, 0x00, 0x01, 0xAA])) = .fault .tftpRange ∧
    State.reset.withUnread 2 3 4 5 ≠ State.reset := ⟨⟨_, rfl⟩, rfl, ⟨_, rfl⟩, rfl, fun h => absurd (congrArg (fun s => s.params.instrPerTick) h) (by decide)⟩

/-- Each element is changed by an operation named for it. -/
theorem test_witness_OnlyNamedOperationsWrite :
    after (exec (.wrRam 0 0x00) State.reset) (fun t => decide (t.ram ≠ State.reset.ram)) = some true ∧
    after (exec (.deposit 0x41) State.reset) (fun t => decide (t.kbd ≠ State.reset.kbd)) = some true ∧
    after (exec (.deposit 0x41) State.reset) (fun t => decide (t.kbdcr ≠ State.reset.kbdcr)) = some true ∧
    after (exec (.wrDsp 0xC1) State.reset) (fun t => decide (t.dsp ≠ State.reset.dsp)) = some true ∧
    after (exec .poweron { State.reset with dspcr := 0x01 }) (fun t => decide (t.dspcr ≠ 0x01)) = some true ∧
    after (exec (.putc 0x41) State.reset) (fun t => decide (t.cell.code 0 0 ≠ State.reset.cell.code 0 0)) = some true ∧
    after (exec (.setcur 0x01 0x00) State.reset) (fun t => decide (t.col ≠ State.reset.col)) = some true ∧
    after (exec .blink State.reset) (fun t => decide (t.vis ≠ State.reset.vis)) = some true ∧
    after (exec .cls { State.reset with dis := true }) (fun t => decide (t.dis ≠ true)) = some true ∧
    after (exec (.tftpWrq 1 [0x00, 0x00]) State.reset) (fun t => decide (t.tcur ≠ State.reset.tcur)) = some true ∧
    after (exec (.connect 1) State.reset) (fun t => decide (t.out ≠ State.reset.out)) = some true := by decide

theorem test_witness_AgentsOwnTheirState :
    ((∃ t : State, exec (.wrDsp 0xC1) State.reset = .next t) ∧ (Instr.wrDsp 0xC1).format = .bus) ∧
    ((∃ t : State, exec (.tftpData 1 0x00 0x01 [0xAA]) State.reset = .next t) ∧
      (Instr.tftpData 1 0x00 0x01 [0xAA]).format = .udp) ∧
    ((∃ t : State, exec (.tbyteEtx 1) State.reset = .next t) ∧ (Instr.tbyteEtx 1).format = .tcpb) ∧
    ((∃ t : State, exec (.connect 1) State.reset = .next t) ∧ (Instr.connect 1).format = .tcpc) ∧
    (∃ t : State, exec .blink State.reset = .next t) := ⟨⟨⟨_, rfl⟩, rfl⟩, ⟨⟨_, rfl⟩, rfl⟩, ⟨⟨_, rfl⟩, rfl⟩, ⟨⟨_, rfl⟩, rfl⟩, ⟨_, rfl⟩⟩

/-- Two states that the CPU cannot tell apart. -/
theorem test_witness_CpuCannotReadTerminalOrCursor :
    State.reset.cpuView = ({ State.reset with vis := true, col := 7, tcur := 0x0204 } : State).cpuView ∧
    State.reset.cpu = ({ State.reset with vis := true, col := 7, tcur := 0x0204 } : State).cpu ∧
    State.reset.col ≠ ({ State.reset with vis := true, col := 7, tcur := 0x0204 } : State).col := ⟨rfl, rfl, by decide⟩

end Sys2Proof.Tests
end

section
/-! SUPPORT. What one step can do, and what every run keeps: the parameters (10_state.md R12, 00_scope.md R3). -/

namespace Sys2Proof.Machine

/-! ## Steps and runs -/

/-- A step with no stimulus waiting. -/
theorem step_of_inbox_nil {s : State} (h : s.inbox = []) : step s = .next s := by
  rw [step, State.fetch_nil h]

/-- What a step that answers `t` did: nothing, or the operation of the head stimulus. -/
theorem step_next_cases {s t : State} (h : step s = .next t) :
    (s.inbox = [] ∧ t = s) ∨
      ∃ st rest, s.inbox = st :: rest ∧ exec (decode s.params st) (s.withEnv rest s.cpu) = .next t := by
  cases hin : s.inbox with
  | nil =>
    rw [step_of_inbox_nil hin] at h
    cases h
    exact .inl ⟨rfl, rfl⟩
  | cons st rest => exact .inr ⟨st, rest, rfl, step_of_inbox hin ▸ h⟩

/-- A run of `k + 1` steps that answers a state is a step that answers one and a run of `k` steps from there. -/
theorem core_run_succ_next {k : Nat} {s t : State} (h : Host.Core.run core (k + 1) s = .next t) :
    ∃ u, step s = .next u ∧ Host.Core.run core k u = .next t := by
  cases hs : step s with
  | next u => exact ⟨u, rfl, core_run_succ hs ▸ h⟩
  | fault f =>
    have hs' : core.step s = .fault f := hs
    simp [Host.Core.run, hs'] at h
  | refused r =>
    have hs' : core.step s = .refused r := hs
    simp [Host.Core.run, hs'] at h

/-- What every step keeps, a run keeps. -/
theorem core_run_induction {P : State → Prop} (keep : ∀ u v, P u → step u = .next v → P v) {k : Nat} {s t : State}
    (h : Host.Core.run core k s = .next t) (hs : P s) : P t := by
  induction k generalizing s with
  | zero =>
    cases h
    exact hs
  | succ k ih =>
    obtain ⟨u, hu, hrun⟩ := core_run_succ_next h
    exact ih hrun (keep s u hs hu)

/-! ## The parameters -/

@[simp] theorem State.withEnv_params (s : State) (ib : List Stimulus) (c : CpuPlan) :
    (s.withEnv ib c).params = s.params := rfl

@[simp] theorem busTxn_params (t : BusTxn) (s : State) : (busTxn t s).params = s.params := (busTxn_frame t s).1

@[simp] theorem rdDsp_params (s : State) : (rdDsp s).params = s.params := by
  unfold rdDsp
  split <;> rfl

@[simp] theorem wrDsp_params (v : Byte) (s : State) : (wrDsp v s).params = s.params := by simp [wrDsp]

@[simp] theorem runPlan_params (p : CpuPlan) (s : State) : (runPlan p s).params = s.params :=
  runPlan_induction (P := fun u => u.params = s.params) p rfl (fun t u hu => (busTxn_params t u).trans hu)
    (fun _ _ hu => hu)

/-- `TFTP.DATA` that completes stored the payload and acknowledged it (43_tftp.md R172, R175). -/
theorem execTftpData_next {c : Session} {hi lo : Byte} {payload : List Byte} {s t : State}
    (h : execTftpData c hi lo payload s = .next t) :
    s.pastRam payload = false ∧ t = (s.storePayload payload).emit (.udp c (ackBytes hi lo)) := by
  unfold execTftpData at h
  split at h
  · cases h
  · next hp =>
    cases h
    exact ⟨by simpa using hp, rfl⟩

/-- 10_state.md R12. Most operations answer one update of another field; the others go through the lemma of the shared
operation they call. -/
theorem exec_keeps_params {i : Instr} {s t : State} (h : exec i s = .next t) : t.params = s.params := by
  cases i with
  | tftpData c hi lo payload =>
    obtain ⟨-, rfl⟩ := execTftpData_next h
    simp
  | rdDsp => cases h; exact rdDsp_params s
  | wrDsp v => cases h; exact wrDsp_params v s
  | putc b => cases h; exact s.putChar_params b
  | setcur x y => cases h; exact s.setCursor_params x y
  | tick => cases h; exact runPlan_params s.cpu s
  | _ => cases h; rfl

theorem step_keeps_params {s t : State} (h : step s = .next t) : t.params = s.params := by
  obtain ⟨-, rfl⟩ | ⟨st, rest, -, hexec⟩ := step_next_cases h
  · rfl
  · exact (exec_keeps_params hexec).trans (s.withEnv_params rest s.cpu)

theorem core_run_keeps_params {k : Nat} {s t : State} (h : Host.Core.run core k s = .next t) : t.params = s.params :=
  core_run_induction (P := fun u => u.params = s.params) (fun _ _ hu hstep => (step_keeps_params hstep).trans hu) h rfl

/-- Settles O52: every operation, so every step and every run, keeps the parameters, and the ROM image is one of them. -/
theorem runsKeepRom : Obligations.RunsKeepRom := by
  intro k s t h
  have hp : t.params = s.params := core_run_keeps_params h
  exact ⟨congrArg Params.rom hp, hp⟩

end Sys2Proof.Machine
end

section
/-! SUPPORT. The classes of a received byte (30_encoding.md R77), one equation of `decodeByte` each. -/

namespace Sys2Proof.Machine

/-! ## Lower-case letters -/

theorem isLower_iff {b : Byte} : isLower b = true ↔ 0x61 ≤ b.toNat ∧ b.toNat ≤ 0x7A := by simp [isLower]

/-- A letter is not `ETX`, the class tested before the letters. -/
theorem ne_etx_of_isLower {b : Byte} (h : isLower b = true) : b ≠ etx := by
  rintro rfl
  exact absurd h (by decide)

/-! ## `decodeByte`, class by class -/

@[simp] theorem decodeByte_etx (c : Session) : decodeByte c etx = .tbyteEtx c := rfl

@[simp] theorem decodeByte_lineFeed (c : Session) : decodeByte c lineFeed = .tbyteLf c := rfl

@[simp] theorem decodeByte_delete (c : Session) : decodeByte c delete = .tbyteDel c := rfl

theorem decodeByte_of_isLower (c : Session) {b : Byte} (h : isLower b = true) :
    decodeByte c b = .tbyteLower c b := by
  rw [decodeByte, if_neg (ne_etx_of_isLower h), if_pos h]

theorem decodeByte_of_other (c : Session) {b : Byte} (hetx : b ≠ etx) (hlower : ¬ isLower b = true)
    (hlf : b ≠ lineFeed) (hdel : b ≠ delete) : decodeByte c b = .tbytePass c b := by
  rw [decodeByte, if_neg hetx, if_neg hlower, if_neg hlf, if_neg hdel]

/-- Settles O5: `decode` reads a received byte by `decodeByte`, whose five classes are disjoint, so that each range of R77
meets its own equation whatever the order of the tests. -/
theorem byteSelectsOperation : Obligations.ByteSelectsOperation := by
  intro p c b
  refine ⟨?etx, ?lower, ?lineFeed, ?delete, ?pass⟩
  case etx =>
    rintro rfl
    exact decodeByte_etx c
  case lower =>
    intro hlo hhi
    exact decodeByte_of_isLower c (isLower_iff.mpr ⟨hlo, hhi⟩)
  case lineFeed =>
    rintro rfl
    exact decodeByte_lineFeed c
  case delete =>
    rintro rfl
    exact decodeByte_delete c
  case pass =>
    intro hetx hrange hlf hdel
    have hlower : ¬ isLower b = true := by rw [isLower_iff]; omega
    exact decodeByte_of_other c hetx hlower hlf hdel

end Sys2Proof.Machine
end

section
/-! SUPPORT. The bus outside the I/O window (40_bus.md R102 to R109): the operation an address selects, a RAM cell
through its two views, and what a sequence of operations keeps. -/

namespace Sys2Proof.Machine

/-! ## The operation an address selects -/

theorem decode_rd_ram {p : Params} {a : Addr} {i : RamIndex} (h : a.toNat = i.val) :
    decode p (.bus (.rd a)) = .rdRam i := by
  rw [decode, decodeBus, decodeRead, region_ram h]

theorem decode_wr_ram {p : Params} {a : Addr} {i : RamIndex} (v : Byte) (h : a.toNat = i.val) :
    decode p (.bus (.wr a v)) = .wrRam i v := by
  rw [decode, decodeBus, decodeWrite, region_ram h]

theorem decode_rd_aliasWindow {p : Params} {a : Addr} {off : Fin 0x1000} (h : a.toNat = p.aliasBase + off.val) :
    decode p (.bus (.rd a)) = .rdAlias off := by
  rw [decode, decodeBus, decodeRead, region_aliasWindow h]

theorem decode_wr_aliasWindow {p : Params} {a : Addr} {off : Fin 0x1000} (v : Byte)
    (h : a.toNat = p.aliasBase + off.val) : decode p (.bus (.wr a v)) = .wrAlias off v := by
  rw [decode, decodeBus, decodeWrite, region_aliasWindow h]

theorem decode_rd_rom {p : Params} {a : Addr} {i : Fin 256} (h : a.toNat = 0xFF00 + i.val) :
    decode p (.bus (.rd a)) = .rdRom i := by
  rw [decode, decodeBus, decodeRead, region_rom h]

theorem decode_wr_rom {p : Params} {a : Addr} {i : Fin 256} (v : Byte) (h : a.toNat = 0xFF00 + i.val) :
    decode p (.bus (.wr a v)) = .wrRom i v := by
  rw [decode, decodeBus, decodeWrite, region_rom h]

theorem decode_rd_unmapped {p : Params} {a : Addr} (h : region p a = .unmapped) :
    decode p (.bus (.rd a)) = .rdNone a := by
  rw [decode, decodeBus, decodeRead, h]

theorem decode_wr_unmapped {p : Params} {a : Addr} (v : Byte) (h : region p a = .unmapped) :
    decode p (.bus (.wr a v)) = .wrNone a v := by
  rw [decode, decodeBus, decodeWrite, h]

/-! ## A RAM cell through its two views -/

theorem exec_rdRam (i : RamIndex) (s : State) : exec (.rdRam i) s = .next (s.reply (s.readRam i)) := rfl

theorem exec_wrRam (i : RamIndex) (v : Byte) (s : State) : exec (.wrRam i v) s = .next (s.writeRam i v) := rfl

/-- `RD.ALIAS` is `RD.RAM` at the index behind the window (R104). -/
theorem exec_rdAlias (off : Fin 0x1000) (s : State) :
    exec (.rdAlias off) s = exec (.rdRam (aliasIndex s.params off)) s := rfl

/-- `WR.ALIAS` is `WR.RAM` at the index behind the window (R105). -/
theorem exec_wrAlias (off : Fin 0x1000) (v : Byte) (s : State) :
    exec (.wrAlias off v) s = exec (.wrRam (aliasIndex s.params off) v) s := rfl

theorem aliasIndex_eq_of_val {p : Params} {off : Fin 0x1000} {i : RamIndex} (h : p.aliasTarget + off.val = i.val) :
    aliasIndex p off = i := Fin.ext h

@[simp] theorem State.readRam_writeRam_same (s : State) (i : RamIndex) (v : Byte) : (s.writeRam i v).readRam i = v :=
  Memory.read_write_same s.ram i.val v

theorem State.writeRam_frame (s : State) (i : RamIndex) (v : Byte) : { s.writeRam i v with ram := s.ram } = s := rfl

theorem exec_rdRam_writeRam (i : RamIndex) (v : Byte) (s : State) :
    exec (.rdRam i) (s.writeRam i v) = .next ((s.writeRam i v).reply v) := by
  rw [exec_rdRam, State.readRam_writeRam_same]

/-- A written cell is read through the window by the offset that reaches it, since a write keeps the parameters. -/
theorem exec_rdAlias_writeRam {off : Fin 0x1000} {i : RamIndex} (v : Byte) {s : State}
    (h : aliasIndex s.params off = i) :
    exec (.rdAlias off) (s.writeRam i v) = .next ((s.writeRam i v).reply v) := by
  rw [exec_rdAlias, State.writeRam_params, h, exec_rdRam_writeRam]

/-- Settles O11: below 0x5000 the region is RAM with the address as index, and `RD.RAM` only answers its cell. -/
theorem ramReadResult : Obligations.RamReadResult := by
  intro i s
  exact ⟨fun _ => decode_rd_ram, exec_rdRam i s⟩

/-- Settles O12: the state after is the one RAM write, whose read laws give the cell, the other cells and both views. -/
theorem ramWriteResult : Obligations.RamWriteResult := by
  intro i v s
  refine ⟨fun _ => decode_wr_ram v, s.writeRam i v, exec_wrRam i v s, s.writeRam_frame i v,
    ?cells, ?direct, ?window⟩
  case cells => exact fun j => s.ram.read_write i.val j v
  case direct => exact exec_rdRam_writeRam i v s
  case window => exact fun off h => exec_rdAlias_writeRam v (aliasIndex_eq_of_val h)

/-- Settles O13: the two operations are those of RAM at `aliasIndex`, an index inside RAM by its type (R4). -/
theorem aliasWindowResult : Obligations.AliasWindowResult := by
  intro off v s
  let c : RamIndex := aliasIndex s.params off
  refine ⟨fun _ h => ⟨decode_rd_aliasWindow h, decode_wr_aliasWindow v h⟩, c.isLt, exec_rdAlias off s,
    s.writeRam c v, exec_wrAlias off v s, s.writeRam_frame c v, ?cells, ?window, ?direct⟩
  case cells => exact fun j => s.ram.read_write c.val j v
  case window => exact exec_rdAlias_writeRam v rfl
  case direct =>
    intro i hi
    obtain rfl : c = i := aliasIndex_eq_of_val hi.symm
    exact ⟨exec_rdRam_writeRam c v s, exec_wrRam c v s⟩

/-! ## The ROM window -/

theorem exec_rdRom (i : Fin 256) (s : State) : exec (.rdRom i) s = .next (s.reply s.params.rom[i.val]) := rfl

/-- `RD.ROM` reads nothing but the parameters. -/
theorem exec_rdRom_of_params (i : Fin 256) {s t : State} (h : t.params = s.params) :
    exec (.rdRom i) t = .next (t.reply s.params.rom[i.val]) := by
  rw [exec_rdRom, h]

theorem exec_wrRom (i : Fin 256) (v : Byte) (s : State) : exec (.wrRom i v) s = .next s := rfl

/-- Operations that all complete: the first completes, and the others complete from the state it answers. -/
theorem execAll_cons_next {i : Instr} {js : List Instr} {s t : State} (h : execAll (i :: js) s = .next t) :
    ∃ u, exec i s = .next u ∧ execAll js u = .next t := by
  rw [execAll] at h
  cases hi : exec i s with
  | next u => exact ⟨u, rfl, by simpa only [hi] using h⟩
  | fault f => simp [hi] at h
  | refused r => simp [hi] at h

theorem execAll_keeps_params {js : List Instr} {s t : State} (h : execAll js s = .next t) : t.params = s.params := by
  induction js generalizing s with
  | nil =>
    cases h
    rfl
  | cons i js ih =>
    obtain ⟨u, hu, hrest⟩ := execAll_cons_next h
    exact (ih hrest).trans (exec_keeps_params hu)

/-- Settles O15: the byte is one of the parameters, which every sequence of operations keeps. -/
theorem romWindowResult : Obligations.RomWindowResult := by
  intro i v s
  refine ⟨fun _ h => ⟨decode_rd_rom h, decode_wr_rom v h⟩, exec_rdRom i s, exec_wrRom i v s, ?constant⟩
  case constant =>
    intro js t h
    exact exec_rdRom_of_params i (execAll_keeps_params h)

/-! ## The unmapped addresses -/

theorem exec_rdNone (a : Addr) (s : State) : exec (.rdNone a) s = .next (s.reply sentinel) := rfl

theorem exec_wrNone (a : Addr) (v : Byte) (s : State) : exec (.wrNone a v) s = .next s := rfl

/-- Settles O16: outside the four ranges the region is none, whose operations read and write no element. -/
theorem unmappedResult : Obligations.UnmappedResult := by
  intro a v s
  refine ⟨fun hram hwin hio hrom => ?selects, exec_rdNone a s, exec_wrNone a v s⟩
  case selects =>
    have hr : region s.params a = .unmapped := region_unmapped hram hwin hio hrom
    exact ⟨decode_rd_unmapped hr, decode_wr_unmapped v hr⟩

end Sys2Proof.Machine
end

section
/-! SUPPORT. The keyboard mailbox: a deposit (41_pia.md R127) and the top bit it sets. -/

namespace Sys2Proof.Machine

/-! ## The top bit -/

theorem or_topBit_idem (b : Byte) : b ||| topBit ||| topBit = b ||| topBit := by
  rw [BitVec.or_assoc, BitVec.or_self]

/-- A bit of `topBit` is set at 7 alone, so setting it keeps a byte whose bit 7 is set. -/
theorem or_topBit_eq_self {b : Byte} (h : b.getLsbD 7 = true) : b ||| topBit = b := by
  have bit_of_topBit : ∀ i < 8, topBit.getLsbD i = true → i = 7 := by decide
  refine BitVec.eq_of_getLsbD_eq fun i hi => ?_
  rw [BitVec.getLsbD_or, Bool.or_eq_left_iff_imp]
  intro htop
  rw [bit_of_topBit i hi htop]
  exact h

/-! ## The deposit -/

theorem exec_deposit (b : Byte) (s : State) : exec (.deposit b) s = .next (s.putKey b) := rfl

theorem State.putKey_or_topBit (s : State) (b : Byte) : s.putKey (b ||| topBit) = s.putKey b := by
  rw [State.putKey, State.putKey, or_topBit_idem]

/-- One slot: the second deposit overwrites the first. -/
theorem State.putKey_putKey (s : State) (b b' : Byte) : (s.putKey b).putKey b' = s.putKey b' := rfl

/-- Settles O24: `DEPOSIT` is `putKey`, which sees its byte only through the byte with its top bit set, and which overwrites
both registers of the mailbox. -/
theorem depositResult : Obligations.DepositResult := by
  intro b s
  refine ⟨exec_deposit b s, ?topBitUnseen, or_topBit_eq_self, ?secondOnly⟩
  case topBitUnseen => exact congrArg Host.Outcome.next (s.putKey_or_topBit b)
  case secondOnly => exact fun b' => congrArg Host.Outcome.next (s.putKey_putKey b b')

end Sys2Proof.Machine
end

section
/-! SUPPORT. The received bytes that deposit a key (44_telnet.md R193 to R196): each operation is `DEPOSIT` of its own byte. -/

namespace Sys2Proof.Machine

/-! ## The operations are deposits, whatever the connection -/

theorem exec_tbyteLower (c : Session) (b : Byte) (s : State) :
    exec (.tbyteLower c b) s = exec (.deposit (b ^^^ caseBit)) s := rfl

theorem exec_tbyteLf (c : Session) (s : State) : exec (.tbyteLf c) s = exec (.deposit carriageReturn) s := rfl

theorem exec_tbyteDel (c : Session) (s : State) : exec (.tbyteDel c) s = exec (.deposit underscore) s := rfl

theorem exec_tbytePass (c : Session) (b : Byte) (s : State) : exec (.tbytePass c b) s = exec (.deposit b) s := rfl

/-! ## The key a deposit leaves -/

theorem carriageReturn_or_topBit : carriageReturn ||| topBit = 0x8D := by decide

theorem underscore_or_topBit : underscore ||| topBit = 0xDF := by decide

/-- The state after `DEPOSIT`, by the key it leaves in the mailbox. -/
theorem exec_deposit_of_key {b key : Byte} (s : State) (h : b ||| topBit = key) :
    exec (.deposit b) s = .next { s with kbd := key, kbdcr := keyPending } := by
  rw [exec_deposit, State.putKey, h]

/-- Settles O42: the classes are those of R77, and each operation is the deposit of its byte, which leaves that byte's key. -/
theorem receivedByteResult : Obligations.ReceivedByteResult := by
  intro c b s
  obtain ⟨-, selectsLower, -, -, selectsPass⟩ := byteSelectsOperation s.params c b
  refine ⟨selectsLower, decodeByte_lineFeed c, decodeByte_delete c, selectsPass, ?lower, ?lineFeed, ?delete, ?pass⟩
  case lower => exact (exec_tbyteLower c b s).trans (exec_deposit_of_key s rfl)
  case lineFeed => exact (exec_tbyteLf c s).trans (exec_deposit_of_key s carriageReturn_or_topBit)
  case delete => exact (exec_tbyteDel c s).trans (exec_deposit_of_key s underscore_or_topBit)
  case pass => exact (exec_tbytePass c b s).trans (exec_deposit_of_key s rfl)

end Sys2Proof.Machine
end

section
/-! SUPPORT. The encoder and the decoder meet (30_encoding.md R70 to R81): the address of each bus operation, the I/O
window by sub-offset, and the datagrams by length and opcode. -/

namespace Sys2Proof.Machine

/-! ## The bus address an operation is presented at -/

theorem busAddr_eq {a : Addr} {base off : Nat} (h : a.toNat = base + off) : busAddr base off = a := by
  rw [busAddr, ← h, BitVec.ofNat_toNat, BitVec.setWidth_eq]

theorem busAddr_ram_toNat (i : RamIndex) : (busAddr 0 i.val).toNat = i.val := by
  rw [busAddr_toNat (by omega), Nat.zero_add]

theorem busAddr_aliasWindow_toNat (p : Params) (off : Fin 0x1000) :
    (busAddr p.aliasBase off.val).toNat = p.aliasBase + off.val := by
  have := p.aliasBelowRom
  exact busAddr_toNat (by omega)

theorem busAddr_io_toNat (p : Params) {sub : Nat} (h : sub < 16) :
    (busAddr p.ioBase sub).toNat = p.ioBase + sub := by
  have := p.ioBelowRom
  exact busAddr_toNat (by omega)

theorem busAddr_rom_toNat (i : Fin 256) : (busAddr 0xFF00 i.val).toNat = 0xFF00 + i.val :=
  busAddr_toNat (by omega)

/-! ## The I/O window by sub-offset -/

section
variable {p : Params} {a : Addr}

theorem decode_rd_kbd (h : a.toNat = p.ioBase) : decode p (.bus (.rd a)) = .rdKbd := by
  rw [decode, decodeBus, decodeRead, region_io (sub := 0) h]
  rfl

theorem decode_rd_kbdcr (h : a.toNat = p.ioBase + 1) : decode p (.bus (.rd a)) = .rdKbdcr := by
  rw [decode, decodeBus, decodeRead, region_io (sub := 1) h]
  rfl

theorem decode_rd_dsp (h : a.toNat = p.ioBase + 2) : decode p (.bus (.rd a)) = .rdDsp := by
  rw [decode, decodeBus, decodeRead, region_io (sub := 2) h]
  rfl

theorem decode_rd_dspcr (h : a.toNat = p.ioBase + 3) : decode p (.bus (.rd a)) = .rdDspcr := by
  rw [decode, decodeBus, decodeRead, region_io (sub := 3) h]
  rfl

theorem decode_rd_iox {sub : Fin 16} (h : a.toNat = p.ioBase + sub.val) (hsub : 4 ≤ sub.val) :
    decode p (.bus (.rd a)) = .rdIox sub := by
  rw [decode, decodeBus, decodeRead, region_io h]
  dsimp only
  rw [if_neg (by omega), if_neg (by omega), if_neg (by omega), if_neg (by omega)]

theorem decode_wr_dsp (v : Byte) (h : a.toNat = p.ioBase + 2) : decode p (.bus (.wr a v)) = .wrDsp v := by
  rw [decode, decodeBus, decodeWrite, region_io (sub := 2) h]
  rfl

theorem decode_wr_iox {sub : Fin 16} (v : Byte) (h : a.toNat = p.ioBase + sub.val) (hsub : sub.val ≠ 2) :
    decode p (.bus (.wr a v)) = .wrIox sub v := by
  rw [decode, decodeBus, decodeWrite, region_io h]
  exact if_neg hsub

end

/-! ## Datagrams -/

theorem decodeUdp_short (c : Session) {q : List Byte} (h : q.length < 4) : decodeUdp c q = .tftpShort c q := by
  match q, h with
  | [], _ | [_], _ | [_, _], _ | [_, _, _], _ => rfl
  | _ :: _ :: _ :: _ :: _, h => simp at h; omega

section
variable (c : Session) {o1 o0 : Byte} (b2 b3 : Byte) (rest : List Byte)

theorem decodeUdp_wrq (h : bigEndian o1 o0 = opWrq) :
    decodeUdp c (o1 :: o0 :: b2 :: b3 :: rest) = .tftpWrq c (b2 :: b3 :: rest) := if_pos h

theorem decodeUdp_data (h : bigEndian o1 o0 = opData) :
    decodeUdp c (o1 :: o0 :: b2 :: b3 :: rest) = .tftpData c b2 b3 rest := by
  rw [decodeUdp, h]
  rfl

theorem decodeUdp_other (hwrq : bigEndian o1 o0 ≠ opWrq) (hdata : bigEndian o1 o0 ≠ opData) :
    decodeUdp c (o1 :: o0 :: b2 :: b3 :: rest) = .tftpOther c (bigEndian o1 o0) (b2 :: b3 :: rest) := by
  rw [decodeUdp, if_neg hwrq, if_neg hdata]

end

/-- The opcode of a datagram as a number (R73). -/
theorem bigEndian_eq_iff {o1 o0 : Byte} {op : BitVec 16} :
    bigEndian o1 o0 = op ↔ o1.toNat * 256 + o0.toNat = op.toNat := by
  rw [← BitVec.toNat_inj, bigEndian_toNat]

/-- Every opcode stands in two bytes, high byte first. -/
theorem exists_opBytes (op : BitVec 16) : ∃ o1 o0, opBytes op = [o1, o0] ∧ bigEndian o1 o0 = op :=
  ⟨_, _, rfl, bigEndian_of_opBytes op⟩

theorem exists_cons_cons_of_two_le_length {body : List Byte} (h : 2 ≤ body.length) :
    ∃ b2 b3 rest, body = b2 :: b3 :: rest := by
  match body, h with
  | b2 :: b3 :: rest, _ => exact ⟨b2, b3, rest, rfl⟩

/-- A datagram is short, or it has two opcode bytes and two bytes more. -/
theorem datagram_cases (q : List Byte) : q.length < 4 ∨ ∃ o1 o0 b2 b3 rest, q = o1 :: o0 :: b2 :: b3 :: rest := by
  match q with
  | [] | [_] | [_, _] | [_, _, _] => simp
  | o1 :: o0 :: b2 :: b3 :: rest => exact .inr ⟨o1, o0, b2, b3, rest, rfl⟩

/-- A well-formed `TFTP.PASS` byte is in none of the four other classes (R77). -/
theorem wellFormed_tbytePass_iff {p : Params} {c : Session} {b : Byte} :
    (Instr.tbytePass c b).wellFormed p = true ↔ b ≠ etx ∧ ¬ isLower b = true ∧ b ≠ lineFeed ∧ b ≠ delete := by
  simp [Instr.wellFormed, and_assoc]

theorem wellFormed_tftpOther_iff {p : Params} {c : Session} {op : BitVec 16} {body : List Byte} :
    (Instr.tftpOther c op body).wellFormed p = true ↔ op ≠ opWrq ∧ op ≠ opData ∧ 2 ≤ body.length := by
  simp [Instr.wellFormed, and_assoc]

/-! ## Decode after encode -/

/-- The datagram of an opcode and a body of at least two bytes, class by class. -/
theorem decodeUdp_opBytes_wrq (c : Session) {body : List Byte} (h : 2 ≤ body.length) :
    decodeUdp c (opBytes opWrq ++ body) = .tftpWrq c body := by
  obtain ⟨b2, b3, rest, rfl⟩ := exists_cons_cons_of_two_le_length h
  exact decodeUdp_wrq c b2 b3 rest (bigEndian_of_opBytes opWrq)

theorem decodeUdp_opBytes_data (c : Session) (hi lo : Byte) (payload : List Byte) :
    decodeUdp c (opBytes opData ++ hi :: lo :: payload) = .tftpData c hi lo payload :=
  decodeUdp_data c hi lo payload (bigEndian_of_opBytes opData)

theorem decodeUdp_opBytes_other (c : Session) {op : BitVec 16} {body : List Byte} (hwrq : op ≠ opWrq)
    (hdata : op ≠ opData) (h : 2 ≤ body.length) : decodeUdp c (opBytes op ++ body) = .tftpOther c op body := by
  obtain ⟨b2, b3, rest, rfl⟩ := exists_cons_cons_of_two_le_length h
  obtain ⟨o1, o0, hop, rfl⟩ := exists_opBytes op
  rw [hop]
  exact decodeUdp_other c b2 b3 rest hwrq hdata

/-- Settles O1, operation by operation: a bus operation by the address of its presentation, a datagram by its opcode, a
byte by its class; the other presentations name their operation. -/
theorem decodeOfEncode : Obligations.DecodeOfEncode := by
  intro p i h
  cases i with
  | rdRam i => exact decode_rd_ram (busAddr_ram_toNat i)
  | wrRam i v => exact decode_wr_ram v (busAddr_ram_toNat i)
  | rdAlias off => exact decode_rd_aliasWindow (busAddr_aliasWindow_toNat p off)
  | wrAlias off v => exact decode_wr_aliasWindow v (busAddr_aliasWindow_toNat p off)
  | rdKbd => exact decode_rd_kbd (busAddr_io_toNat p (by decide))
  | rdKbdcr => exact decode_rd_kbdcr (busAddr_io_toNat p (by decide))
  | rdDsp => exact decode_rd_dsp (busAddr_io_toNat p (by decide))
  | rdDspcr => exact decode_rd_dspcr (busAddr_io_toNat p (by decide))
  | rdIox sub => exact decode_rd_iox (busAddr_io_toNat p sub.isLt) (of_decide_eq_true h)
  | wrDsp v => exact decode_wr_dsp v (busAddr_io_toNat p (by decide))
  | wrIox sub v => exact decode_wr_iox v (busAddr_io_toNat p sub.isLt) (of_decide_eq_true h)
  | rdRom i => exact decode_rd_rom (busAddr_rom_toNat i)
  | wrRom i v => exact decode_wr_rom v (busAddr_rom_toNat i)
  | rdNone a => exact decode_rd_unmapped (of_decide_eq_true h)
  | wrNone a v => exact decode_wr_unmapped v (of_decide_eq_true h)
  | tftpShort c q => exact decodeUdp_short c (of_decide_eq_true h)
  | tftpWrq c body => exact decodeUdp_opBytes_wrq c (of_decide_eq_true h)
  | tftpData c hi lo payload => exact decodeUdp_opBytes_data c hi lo payload
  | tftpOther c op body =>
    obtain ⟨hwrq, hdata, hbody⟩ := wellFormed_tftpOther_iff.mp h
    exact decodeUdp_opBytes_other c hwrq hdata hbody
  | tbyteLower c b => exact decodeByte_of_isLower c h
  | tbytePass c b =>
    obtain ⟨hetx, hlower, hlf, hdel⟩ := wellFormed_tbytePass_iff.mp h
    exact decodeByte_of_other c hetx hlower hlf hdel
  | _ => rfl

/-! ## Encode after decode -/

/-- The operation `i` is well-formed and `q` is its one presentation. -/
def PresentedBy (p : Params) (i : Instr) (q : Presentation) : Prop := i.wellFormed p = true ∧ encode p i = q

theorem presentedBy_rd (p : Params) (a : Addr) : PresentedBy p (decode p (.bus (.rd a))) (.stimulus (.bus (.rd a))) := by
  have presented {base off : Nat} (h : a.toNat = base + off) :
      Presentation.stimulus (.bus (.rd (busAddr base off))) = .stimulus (.bus (.rd a)) := by rw [busAddr_eq h]
  obtain ⟨i, h⟩ | ⟨off, h⟩ | ⟨sub, h⟩ | ⟨i, h⟩ | ⟨hram, hwin, hio, hrom⟩ := address_cases p a
  · rw [decode_rd_ram h]
    exact ⟨rfl, presented (by omega)⟩
  · rw [decode_rd_aliasWindow h]
    exact ⟨rfl, presented h⟩
  · match sub with
    | 0 => rw [decode_rd_kbd h]; exact ⟨rfl, presented h⟩
    | 1 => rw [decode_rd_kbdcr h]; exact ⟨rfl, presented h⟩
    | 2 => rw [decode_rd_dsp h]; exact ⟨rfl, presented h⟩
    | 3 => rw [decode_rd_dspcr h]; exact ⟨rfl, presented h⟩
    | ⟨sub + 4, hs⟩ =>
      rw [decode_rd_iox h (by simp)]
      exact ⟨by simp [Instr.wellFormed], presented h⟩
  · rw [decode_rd_rom h]
    exact ⟨rfl, presented h⟩
  · have hr : region p a = .unmapped := region_unmapped hram hwin hio hrom
    rw [decode_rd_unmapped hr]
    exact ⟨decide_eq_true hr, rfl⟩

theorem presentedBy_wr (p : Params) (a : Addr) (v : Byte) :
    PresentedBy p (decode p (.bus (.wr a v))) (.stimulus (.bus (.wr a v))) := by
  have presented {base off : Nat} (h : a.toNat = base + off) :
      Presentation.stimulus (.bus (.wr (busAddr base off) v)) = .stimulus (.bus (.wr a v)) := by rw [busAddr_eq h]
  obtain ⟨i, h⟩ | ⟨off, h⟩ | ⟨sub, h⟩ | ⟨i, h⟩ | ⟨hram, hwin, hio, hrom⟩ := address_cases p a
  · rw [decode_wr_ram v h]
    exact ⟨rfl, presented (by omega)⟩
  · rw [decode_wr_aliasWindow v h]
    exact ⟨rfl, presented h⟩
  · by_cases hsub : sub.val = 2
    · rw [decode_wr_dsp v (hsub ▸ h)]
      exact ⟨rfl, presented (hsub ▸ h)⟩
    · rw [decode_wr_iox v h hsub]
      exact ⟨decide_eq_true hsub, presented h⟩
  · rw [decode_wr_rom v h]
    exact ⟨rfl, presented h⟩
  · have hr : region p a = .unmapped := region_unmapped hram hwin hio hrom
    rw [decode_wr_unmapped v hr]
    exact ⟨decide_eq_true hr, rfl⟩

theorem presentedBy_udp (p : Params) (c : Session) (q : List Byte) :
    PresentedBy p (decodeUdp c q) (.stimulus (.udp c q)) := by
  obtain h | ⟨o1, o0, b2, b3, rest, rfl⟩ := datagram_cases q
  · rw [decodeUdp_short c h]
    exact ⟨decide_eq_true h, rfl⟩
  have presented {op : BitVec 16} (h : bigEndian o1 o0 = op) :
      Presentation.stimulus (.udp c (opBytes op ++ b2 :: b3 :: rest)) =
        .stimulus (.udp c (o1 :: o0 :: b2 :: b3 :: rest)) := by
    rw [← h, opBytes_bigEndian]
    rfl
  by_cases hwrq : bigEndian o1 o0 = opWrq
  · rw [decodeUdp_wrq c b2 b3 rest hwrq]
    exact ⟨by simp [Instr.wellFormed], presented hwrq⟩
  by_cases hdata : bigEndian o1 o0 = opData
  · rw [decodeUdp_data c b2 b3 rest hdata]
    exact ⟨rfl, presented hdata⟩
  · rw [decodeUdp_other c b2 b3 rest hwrq hdata]
    exact ⟨wellFormed_tftpOther_iff.mpr ⟨hwrq, hdata, by simp⟩, presented rfl⟩

theorem presentedBy_byte (p : Params) (c : Session) (b : Byte) :
    PresentedBy p (decodeByte c b) (.stimulus (.tcpb c b)) := by
  by_cases hetx : b = etx
  · subst hetx
    exact ⟨rfl, rfl⟩
  by_cases hlower : isLower b = true
  · rw [decodeByte_of_isLower c hlower]
    exact ⟨hlower, rfl⟩
  by_cases hlf : b = lineFeed
  · subst hlf
    exact ⟨rfl, rfl⟩
  by_cases hdel : b = delete
  · subst hdel
    exact ⟨rfl, rfl⟩
  · rw [decodeByte_of_other c hetx hlower hlf hdel]
    exact ⟨wellFormed_tbytePass_iff.mpr ⟨hetx, hlower, hlf, hdel⟩, rfl⟩

/-- Settles O2, format by format: the addresses, datagrams and bytes leave no case out, and each case presents its
operation. -/
theorem encodeOfDecode : Obligations.EncodeOfDecode := by
  intro p q
  cases q with
  | call c => cases c <;> exact ⟨rfl, rfl⟩
  | stimulus st =>
    cases st with
    | bus t =>
      cases t with
      | rd a => exact presentedBy_rd p a
      | wr a v => exact presentedBy_wr p a v
    | udp c q => exact presentedBy_udp p c q
    | tcpb c b => exact presentedBy_byte p c b
    | tcpc c => exact ⟨rfl, rfl⟩
    | evt e => cases e <;> exact ⟨rfl, rfl⟩

/-- Settles O3: each range selects its region, and the I/O window goes by sub-offset. -/
theorem busAddressSelectsOperation : Obligations.BusAddressSelectsOperation := by
  intro p a v
  refine ⟨fun _ h => ⟨decode_rd_ram h, decode_wr_ram v h⟩,
    fun _ h => ⟨decode_rd_aliasWindow h, decode_wr_aliasWindow v h⟩, decode_rd_kbd, decode_rd_kbdcr,
    fun h => ⟨decode_rd_dsp h, decode_wr_dsp v h⟩, decode_rd_dspcr,
    fun _ h => ⟨decode_rd_iox h, decode_wr_iox v h⟩, fun _ h => ⟨decode_rd_rom h, decode_wr_rom v h⟩, ?unmapped⟩
  case unmapped =>
    intro hram hwin hio hrom
    have hr : region p a = .unmapped := region_unmapped hram hwin hio hrom
    exact ⟨decode_rd_unmapped hr, decode_wr_unmapped v hr⟩

/-- Settles O4: the length test first, then the opcode as a number. -/
theorem datagramSelectsOperation : Obligations.DatagramSelectsOperation := by
  intro p c q
  refine ⟨decodeUdp_short c, ?_⟩
  rintro o1 o0 b2 b3 rest rfl
  refine ⟨fun h => decodeUdp_wrq c b2 b3 rest (bigEndian_eq_iff.mpr h),
    fun h => decodeUdp_data c b2 b3 rest (bigEndian_eq_iff.mpr h), fun hwrq hdata => ?_⟩
  exact decodeUdp_other c b2 b3 rest (mt bigEndian_eq_iff.mp hwrq) (mt bigEndian_eq_iff.mp hdata)

end Sys2Proof.Machine
end

section
/-! SUPPORT. What one bus transaction does to the state (40_bus.md R100, R101): the three shapes of an `RD` and of a `WR`. -/

namespace Sys2Proof.Machine

/-- `RD.DSP` answers a byte and no more, or a draw (41_pia.md R123). -/
theorem rdDsp_cases (s : State) : (∃ b, rdDsp s = s.reply b) ∨ rdDsp s = s.replyDraw := by
  unfold rdDsp
  split
  · exact .inr rfl
  · exact .inl ⟨_, rfl⟩
  · exact .inl ⟨_, rfl⟩

/-- An `RD` answers a byte and no more, or reads the key and clears its flag at `IO_BASE`, or answers a draw inside the I/O
window from sub-offset 2 on. -/
theorem busRead_cases (a : Addr) (s : State) :
    (a.toNat ≠ s.params.ioBase ∧ ∃ b, busRead a s = s.reply b) ∨
    (a.toNat = s.params.ioBase ∧ busRead a s = rdKbd s) ∨
    (s.params.ioBase + 2 ≤ a.toNat ∧ a.toNat < s.params.ioBase + 16 ∧ busRead a s = s.replyDraw) := by
  have := s.params.ramBelowIo
  have := s.params.ioBelowRom
  have := s.params.windowsApart
  obtain ⟨i, h⟩ | ⟨off, h⟩ | ⟨sub, h⟩ | ⟨i, h⟩ | ⟨hram, hwin, hio, hrom⟩ := address_cases s.params a
  · exact .inl ⟨by omega, _, by rw [busRead, region_ram h]; rfl⟩
  · exact .inl ⟨by omega, _, by rw [busRead, region_aliasWindow h]; rfl⟩
  · rw [busRead, region_io h]
    match sub with
    | 0 => exact .inr (.inl ⟨h, rfl⟩)
    | 1 => exact .inl ⟨by omega, _, rfl⟩
    | 2 =>
      obtain ⟨b, hb⟩ | hdraw := rdDsp_cases s
      · exact .inl ⟨by omega, b, hb⟩
      · exact .inr (.inr ⟨by omega, by omega, hdraw⟩)
    | 3 => exact .inl ⟨by omega, _, rfl⟩
    | ⟨sub + 4, hsub⟩ => exact .inr (.inr ⟨by simp at h; omega, by simp at h; omega, rfl⟩)
  · exact .inl ⟨by omega, _, by rw [busRead, region_rom h]; rfl⟩
  · exact .inl ⟨by omega, _, by rw [busRead, region_unmapped hram hwin hio hrom]; rfl⟩

/-- A `WR` stores the byte in the RAM cell its address names, or writes the display register at sub-offset 2, or does
nothing. -/
theorem busWrite_cases (a : Addr) (v : Byte) (s : State) :
    (a.toNat ≠ s.params.ioBase + 2 ∧ ∃ i, busCell s.params a = some i ∧ busWrite a v s = s.writeRam i v) ∨
    (a.toNat = s.params.ioBase + 2 ∧ busWrite a v s = wrDsp v s) ∨
    (a.toNat ≠ s.params.ioBase + 2 ∧ busCell s.params a = none ∧ busWrite a v s = s) := by
  have := s.params.ramBelowIo
  have := s.params.ioBelowRom
  have := s.params.windowsApart
  obtain ⟨i, h⟩ | ⟨off, h⟩ | ⟨sub, h⟩ | ⟨i, h⟩ | ⟨hram, hwin, hio, hrom⟩ := address_cases s.params a
  · rw [busCell, busWrite, region_ram h]
    exact .inl ⟨by omega, i, rfl, rfl⟩
  · rw [busCell, busWrite, region_aliasWindow h]
    exact .inl ⟨by omega, _, rfl, rfl⟩
  · rw [busCell, busWrite, region_io h]
    by_cases hsub : sub.val = 2
    · exact .inr (.inl ⟨by omega, if_pos hsub⟩)
    · exact .inr (.inr ⟨by omega, rfl, if_neg hsub⟩)
  · rw [busCell, busWrite, region_rom h]
    exact .inr (.inr ⟨by omega, rfl, rfl⟩)
  · rw [busCell, busWrite, region_unmapped hram hwin hio hrom]
    exact .inr (.inr ⟨by omega, rfl, rfl⟩)

/-- Settles O14: the operations of the window are those of RAM at the index behind it, which is the index of `r`. -/
theorem aliasTransactionIsRamTransaction : Obligations.AliasTransactionIsRamTransaction := by
  intro s a r v hlo hhi hr
  let off : Fin 0x1000 := ⟨a.toNat - s.params.aliasBase, by omega⟩
  have ha : a.toNat = s.params.aliasBase + off.val := (Nat.add_sub_cancel' hlo).symm
  have hr' : r.toNat = (aliasIndex s.params off).val := hr.trans (Nat.add_comm _ _)
  rw [decode_rd_aliasWindow ha, decode_wr_aliasWindow v ha, decode_rd_ram hr', decode_wr_ram v hr']
  exact ⟨exec_rdAlias off s, exec_wrAlias off v s⟩

/-- Settles O17, by the three shapes of an `RD`. -/
theorem busReadReach : Obligations.BusReadReach := by
  intro s a
  have hexec : exec (decode s.params (.bus (.rd a))) s = .next (busRead a s) := exec_decodeBus (.rd a) s
  obtain ⟨hne, b, hb⟩ | ⟨heq, hkbd⟩ | ⟨hlo, hhi, hdraw⟩ := busRead_cases a s
  · exact ⟨s.reply b, b, hexec.trans (congrArg _ hb), rfl, rfl, fun h => absurd h hne, fun _ => rfl, fun _ => rfl⟩
  · exact ⟨rdKbd s, s.kbd, hexec.trans (congrArg _ hkbd), rfl, rfl, fun _ => rfl, fun h => absurd heq h, fun _ => rfl⟩
  · refine ⟨s.replyDraw, Config.draw s.draws, hexec.trans (congrArg _ hdraw), rfl, rfl, ?_, fun _ => rfl, ?_⟩ <;>
      intro h <;> omega

theorem wrDsp_frame (v : Byte) (s : State) :
    { wrDsp v s with dsp := s.dsp, cell := s.cell, col := s.col, row := s.row, dis := s.dis } = s := by
  cases s
  simp [wrDsp]

@[simp] theorem wrDsp_dsp (v : Byte) (s : State) : (wrDsp v s).dsp = v := by simp [wrDsp]

/-- Settles O18, by the three shapes of a `WR`. -/
theorem busWriteReach : Obligations.BusWriteReach := by
  intro s a v
  have hexec : exec (decode s.params (.bus (.wr a v))) s = .next (busWrite a v s) := exec_decodeBus (.wr a v) s
  refine ⟨busWrite a v s, hexec, ?_⟩
  obtain ⟨hne, i, hcell, hstore⟩ | ⟨heq, hdsp⟩ | ⟨hne, hcell, hnone⟩ := busWrite_cases a v s
  · refine ⟨fun _ => ⟨by rw [hstore, State.writeRam_frame], fun j => ?_⟩, fun h => absurd h hne⟩
    rw [hstore, hcell, State.writeRam_ram, Memory.read_write]
    simp [eq_comm]
  · exact ⟨fun h => absurd heq h, fun _ => by rw [hdsp]; exact ⟨wrDsp_dsp v s, wrDsp_frame v s⟩⟩
  · refine ⟨fun _ => ⟨by rw [hnone], fun j => ?_⟩, fun h => absurd h hne⟩
    rw [hnone, hcell]
    simp

end Sys2Proof.Machine
end

section
/-! SUPPORT. The step and the word placed for it (20_memory.md R51, R52), and the invariant of the event boundaries. -/

namespace Sys2Proof.Machine

/-- Settles O9: the two equations of a step, by whether a stimulus waits. -/
theorem stepRunsDecoded : Obligations.StepRunsDecoded :=
  fun _ => ⟨step_of_inbox_nil, fun _ _ h => step_of_inbox h⟩

theorem State.withFetchWord_eq_deliver {nbits w : Nat} {st : Stimulus} (s : State)
    (h : wordStimulus nbits w = some st) : s.withFetchWord nbits w = s.deliver st := by
  rw [State.withFetchWord, h]

theorem step_deliver (s : State) (st : Stimulus) : step (s.deliver st) = exec (decode s.params st) s := by
  rw [step, State.fetch_deliver]

/-- Settles O10: placing a word delivers its stimulus, which the step then takes. -/
theorem fetchWordRunsNext : Obligations.FetchWordRunsNext := by
  intro s nbits w st h
  rw [s.withFetchWord_eq_deliver h, step_deliver]

/-! ## The invariant -/

theorem or_topBit_getLsbD (b : Byte) : (b ||| topBit).getLsbD 7 = true := by
  rw [BitVec.getLsbD_or]
  exact Bool.or_true _

theorem State.Inv.putKey {s : State} (h : s.Inv) (b : Byte) : (s.putKey b).Inv := by
  obtain ⟨hram, -, -, -, hdspcr, hdis⟩ := h
  exact ⟨hram, .inr rfl, fun _ => or_topBit_getLsbD b, .inr (or_topBit_getLsbD b), hdspcr, hdis⟩

theorem State.Inv.takeKey {s : State} (h : s.Inv) : s.takeKey.Inv := by
  obtain ⟨hram, -, -, hkbd, hdspcr, hdis⟩ := h
  exact ⟨hram, .inl rfl, fun hpending => absurd hpending (show keyIdle ≠ 0xFF by decide), hkbd, hdspcr, hdis⟩

theorem State.Inv.writeRam {s : State} (h : s.Inv) (i : RamIndex) (v : Byte) : (s.writeRam i v).Inv :=
  ⟨State.writeRam_wf h.1 i v, h.2⟩

/-- Whatever the inhibit was before, `PUTC` leaves it off. -/
theorem State.Inv.putChar {s : State} (h : s.Inv) (b : Byte) : (s.putChar b).Inv := by
  obtain ⟨hram, hflag, hpending, hkbd, hdspcr, -⟩ := h
  simp only [State.Inv, State.putChar_ram, State.putChar_kbd, State.putChar_kbdcr, State.putChar_dspcr]
  exact ⟨hram, hflag, hpending, hkbd, hdspcr, rfl⟩

theorem State.Inv.setCursor {s : State} (h : s.Inv) (x y : Byte) : (s.setCursor x y).Inv := by
  simpa [State.Inv] using h

theorem State.Inv.clearScreen {s : State} (h : s.Inv) : s.clearScreen.Inv := by
  obtain ⟨hram, hflag, hpending, hkbd, hdspcr, -⟩ := h
  exact ⟨hram, hflag, hpending, hkbd, hdspcr, rfl⟩

theorem State.Inv.resetAll {s : State} (h : s.Inv) : s.resetAll.Inv := by
  obtain ⟨-, hflag, hpending, hkbd, hdspcr, -⟩ := h
  exact ⟨rfl, hflag, hpending, hkbd, hdspcr, rfl⟩

theorem State.Inv.quiesce {s : State} (h : s.Inv) : s.quiesce.Inv :=
  ⟨h.1, .inl rfl, fun hpending => absurd hpending (show (0x00 : Byte) ≠ 0xFF by decide), .inl rfl, rfl, rfl⟩

theorem State.Inv.storePayload {s : State} (h : s.Inv) {payload : List Byte} (hp : s.pastRam payload = false) :
    (s.storePayload payload).Inv := ⟨State.storePayload_wf h.1 hp, h.2⟩

/-- A transaction keeps the invariant: a reply and a draw are outside it. -/
theorem State.Inv.busTxn {s : State} (h : s.Inv) (t : BusTxn) : (busTxn t s).Inv := by
  cases t with
  | rd a =>
    show (busRead a s).Inv
    obtain ⟨-, b, hb⟩ | ⟨-, hkbd⟩ | ⟨-, -, hdraw⟩ := busRead_cases a s
    · rw [hb]; exact h
    · rw [hkbd]; exact h.takeKey
    · rw [hdraw]; exact h
  | wr a v =>
    show (busWrite a v s).Inv
    obtain ⟨-, i, -, hstore⟩ | ⟨-, hdsp⟩ | ⟨-, -, hnone⟩ := busWrite_cases a v s
    · rw [hstore]; exact h.writeRam i v
    · rw [hdsp]; exact State.Inv.putChar (s := s.setDsp v) h _
    · rw [hnone]; exact h

theorem State.Inv.runPlan {s : State} (h : s.Inv) (p : CpuPlan) : (runPlan p s).Inv :=
  runPlan_induction (P := State.Inv) p h (fun t _ hs => hs.busTxn t) (fun _ _ hs => hs)

/-- Every operation that completes keeps the invariant. An operation that is not listed writes none of its elements. -/
theorem exec_keeps_inv {i : Instr} {s t : State} (hs : s.Inv) (h : exec i s = .next t) : t.Inv := by
  cases i with
  | wrRam i v => cases h; exact hs.writeRam i v
  | wrAlias off v => cases h; exact hs.writeRam _ v
  | rdKbd => cases h; exact hs.takeKey
  | rdDsp =>
    cases h
    obtain ⟨b, hb⟩ | hdraw := rdDsp_cases s
    · rw [hb]; exact hs
    · rw [hdraw]; exact hs
  | wrDsp v => cases h; exact State.Inv.putChar (s := s.setDsp v) hs _
  | deposit b => cases h; exact hs.putKey b
  | putc b => cases h; exact hs.putChar b
  | setcur x y => cases h; exact hs.setCursor x y
  | cls => cases h; exact hs.clearScreen
  | tftpData c hi lo payload =>
    obtain ⟨hp, rfl⟩ := execTftpData_next h
    exact hs.storePayload hp
  | tbyteEtx c => cases h; exact hs.resetAll
  | tbyteLower c b => cases h; exact hs.putKey _
  | tbyteLf c => cases h; exact hs.putKey _
  | tbyteDel c => cases h; exact hs.putKey _
  | tbytePass c b => cases h; exact hs.putKey b
  | tick => cases h; exact hs.runPlan s.cpu
  | reset => cases h; exact hs.resetAll
  | poweron => cases h; exact hs.quiesce.resetAll
  | _ => cases h; exact hs

/-- Settles O50: a step is idle, or it executes an operation on the state with one stimulus taken, and the inbox is outside
the invariant. -/
theorem stepKeepsInv : Obligations.StepKeepsInv := by
  intro s t hs h
  obtain ⟨-, rfl⟩ | ⟨st, rest, -, hexec⟩ := step_next_cases h
  · exact hs
  · exact exec_keeps_inv (s := s.withEnv rest s.cpu) hs hexec

/-- Settles O51: power-on writes each element of the invariant; the flag is idle, so no key is claimed to be pending. -/
theorem resetMeetsInv : Obligations.ResetMeetsInv :=
  ⟨State.reset_ram_wf, .inl rfl, fun hpending => absurd hpending (show (0x00 : Byte) ≠ 0xFF by decide), .inl rfl, rfl, rfl⟩

end Sys2Proof.Machine
end

section
/-! SUPPORT. The opcode table read by masks and priorities (30_encoding.md R84), and the operations that only calls name
(R75). -/

namespace Sys2Proof.Machine

/-! ## Selection by priority -/

/-- What the row selected for `w` is: an applying row with the smallest priority number, or none where no row applies. -/
def IsSelected (rows : List TableRow) (w : Nat) : Option TableRow → Prop
  | none => ∀ q ∈ rows, w &&& q.mask ≠ q.pattern
  | some r => r ∈ rows ∧ w &&& r.mask = r.pattern ∧ ∀ q ∈ rows, w &&& q.mask = q.pattern → r.priority ≤ q.priority

theorem isSelected_selectRow (rows : List TableRow) (w : Nat) : IsSelected rows w (selectRow rows w) := by
  induction rows with
  | nil => simp [selectRow, IsSelected]
  | cons p rows ih =>
    rw [selectRow]
    cases hrest : selectRow rows w with
    | none =>
      rw [hrest] at ih
      dsimp only
      split
      next hp =>
        exact ⟨by simp, hp, List.forall_mem_cons.mpr ⟨fun _ => le_rfl, fun q hq happ => absurd happ (ih q hq)⟩⟩
      next hp => exact List.forall_mem_cons.mpr ⟨hp, ih⟩
    | some r =>
      rw [hrest] at ih
      obtain ⟨hmem, happ, hmin⟩ := ih
      dsimp only
      split
      next hp =>
        obtain ⟨hp, hle⟩ := hp
        exact ⟨by simp, hp, List.forall_mem_cons.mpr ⟨fun _ => le_rfl, fun q hq hq' => hle.trans (hmin q hq hq')⟩⟩
      next hp =>
        refine ⟨by simp [hmem], happ, List.forall_mem_cons.mpr ⟨fun hq => ?_, hmin⟩⟩
        exact le_of_not_ge fun hle => hp ⟨hq, hle⟩

/-- The mnemonic selected is `m` when some applying row has it and every applying row of another mnemonic has a larger
priority number than that row. -/
theorem selectRow_op {rows : List TableRow} {w : Nat} (m : Mnemonic) (pr : Nat)
    (h : (∃ r ∈ rows, w &&& r.mask = r.pattern ∧ r.op = m ∧ r.priority = pr) ∧
      ∀ q ∈ rows, w &&& q.mask = q.pattern → q.op = m ∨ pr < q.priority) :
    (selectRow rows w).map TableRow.op = some m := by
  obtain ⟨⟨r, hr, happ, -, rfl⟩, hmin⟩ := h
  have hsel := isSelected_selectRow rows w
  cases hrow : selectRow rows w with
  | none =>
    rw [hrow] at hsel
    exact absurd happ (hsel r hr)
  | some q =>
    rw [hrow] at hsel
    obtain ⟨hq, hqapp, hle⟩ := hsel
    exact congrArg some ((hmin q hq hqapp).resolve_right (Nat.not_lt.mpr (hle r hr happ)))

/-! ## Masks are ranges -/

/-- A mask of all bits from `k` on clears the low `k` bits. -/
theorem and_highBits {n w : Nat} (k : Nat) (hk : k ≤ n) (hw : w < 2 ^ n) :
    w &&& (2 ^ n - 2 ^ k) = w / 2 ^ k * 2 ^ k := by
  have hmask : 2 ^ n - 2 ^ k = (2 ^ (n - k) - 1) <<< k := by
    rw [Nat.shiftLeft_eq, Nat.sub_mul, ← pow_add, Nat.sub_add_cancel hk, one_mul]
  have hsmall : w >>> k < 2 ^ (n - k) := by
    rw [Nat.shiftRight_eq_div_pow]
    exact Nat.div_lt_of_lt_mul (by rwa [← pow_add, Nat.add_sub_cancel' hk])
  calc w &&& (2 ^ n - 2 ^ k) = (w >>> k &&& (2 ^ (n - k) - 1)) <<< k := by
        rw [hmask]
        apply Nat.eq_of_testBit_eq
        intro i
        by_cases hi : k ≤ i <;> simp [hi, Bool.and_comm]
    _ = w / 2 ^ k * 2 ^ k := by
        rw [Nat.and_two_pow_sub_one_of_lt_two_pow hsmall, Nat.shiftRight_eq_div_pow, Nat.shiftLeft_eq]

theorem busMasks {w : Nat} (hw : w < 2 ^ 17) :
    w &&& 0x1C000 = w / 0x4000 * 0x4000 ∧ w &&& 0x1F000 = w / 0x1000 * 0x1000 ∧ w &&& 0x1FFFF = w ∧
    w &&& 0x1FFF0 = w / 16 * 16 ∧ w &&& 0x1FF00 = w / 256 * 256 ∧ w &&& 0x10000 = w / 0x10000 * 0x10000 := by
  have clears (k : Nat) (hk : k ≤ 17) := and_highBits k hk hw
  have h0 := clears 0 (by decide)
  rw [pow_zero, Nat.div_one, mul_one] at h0
  exact ⟨clears 14 (by decide), clears 12 (by decide), h0, clears 4 (by decide), clears 8 (by decide),
    clears 16 (by decide)⟩

theorem byteMasks {w : Nat} (hw : w < 2 ^ 8) :
    w &&& 0xFF = w ∧ w &&& 0xFE = w / 2 * 2 ∧ w &&& 0xFC = w / 4 * 4 ∧ w &&& 0xF8 = w / 8 * 8 := by
  have clears (k : Nat) (hk : k ≤ 8) := and_highBits k hk hw
  have h0 := clears 0 (by decide)
  rw [pow_zero, Nat.div_one, mul_one] at h0
  exact ⟨h0, clears 1 (by decide), clears 2 (by decide), clears 3 (by decide)⟩

/-! ## The rows of each format against the decoder -/

theorem selectRow_rd {w : Nat} {a : Addr} (ha : a.toNat = w) :
    (selectRow busRows w).map TableRow.op = some (decode Params.default (.bus (.rd a))).mnemonic := by
  have hw : w < 2 ^ 16 := ha ▸ a.isLt
  have masks := busMasks (w := w) (by omega)
  have hwin : Params.default.aliasBase = 0xE000 := rfl
  have hio : Params.default.ioBase = 0xD010 := rfl
  obtain ⟨i, h⟩ | ⟨off, h⟩ | ⟨sub, h⟩ | ⟨i, h⟩ | ⟨hram, hout, hio', hrom⟩ := address_cases Params.default a
  · rw [decode_rd_ram h]
    exact selectRow_op .rdRam 1 (by simp [busRows, masks]; omega)
  · rw [decode_rd_aliasWindow h]
    exact selectRow_op .rdAlias 2 (by simp [busRows, masks]; omega)
  · match sub with
    | 0 =>
      rw [decode_rd_kbd h]
      exact selectRow_op .rdKbd 3 (by simp [busRows, masks]; omega)
    | 1 =>
      rw [decode_rd_kbdcr h]
      exact selectRow_op .rdKbdcr 3 (by simp [busRows, masks]; omega)
    | 2 =>
      rw [decode_rd_dsp h]
      exact selectRow_op .rdDsp 3 (by simp [busRows, masks]; omega)
    | 3 =>
      rw [decode_rd_dspcr h]
      exact selectRow_op .rdDspcr 3 (by simp [busRows, masks]; omega)
    | ⟨sub + 4, hsub⟩ =>
      rw [decode_rd_iox h (by simp)]
      dsimp only at h
      exact selectRow_op .rdIox 4 (by simp [busRows, masks]; omega)
  · rw [decode_rd_rom h]
    exact selectRow_op .rdRom 5 (by simp [busRows, masks]; omega)
  · rw [decode_rd_unmapped (region_unmapped hram hout hio' hrom)]
    exact selectRow_op .rdNone 9 (by simp [busRows, masks]; omega)

theorem selectRow_wr {w : Nat} {a : Addr} (v : Byte) (ha : a.toNat + 0x10000 = w) :
    (selectRow busRows w).map TableRow.op = some (decode Params.default (.bus (.wr a v))).mnemonic := by
  have haddr := a.isLt
  have masks := busMasks (w := w) (by omega)
  have hwin : Params.default.aliasBase = 0xE000 := rfl
  have hio : Params.default.ioBase = 0xD010 := rfl
  obtain ⟨i, h⟩ | ⟨off, h⟩ | ⟨sub, h⟩ | ⟨i, h⟩ | ⟨hram, hout, hio', hrom⟩ := address_cases Params.default a
  · rw [decode_wr_ram v h]
    exact selectRow_op .wrRam 1 (by simp [busRows, masks]; omega)
  · rw [decode_wr_aliasWindow v h]
    exact selectRow_op .wrAlias 2 (by simp [busRows, masks]; omega)
  · by_cases hsub : sub.val = 2
    · rw [decode_wr_dsp v (hsub ▸ h)]
      exact selectRow_op .wrDsp 3 (by simp [busRows, masks]; omega)
    · rw [decode_wr_iox v h hsub]
      exact selectRow_op .wrIox 4 (by simp [busRows, masks]; omega)
  · rw [decode_wr_rom v h]
    exact selectRow_op .wrRom 5 (by simp [busRows, masks]; omega)
  · rw [decode_wr_unmapped v (region_unmapped hram hout hio' hrom)]
    exact selectRow_op .wrNone 9 (by simp [busRows, masks]; omega)

theorem selectRow_opcode (c : Session) (op : BitVec 16) :
    (selectRow udpRows op.toNat).map TableRow.op =
      some (decodeUdp c (opBytes op ++ [0x00, 0x00])).mnemonic := by
  have hmask : op.toNat &&& 0xFFFF = op.toNat := Nat.and_two_pow_sub_one_of_lt_two_pow op.isLt
  by_cases hwrq : op = opWrq
  · subst hwrq
    rfl
  by_cases hdata : op = opData
  · subst hdata
    rfl
  · have hne2 : op.toNat ≠ 2 := fun h => hwrq (BitVec.eq_of_toNat_eq h)
    have hne3 : op.toNat ≠ 3 := fun h => hdata (BitVec.eq_of_toNat_eq h)
    rw [decodeUdp_opBytes_other c hwrq hdata (by simp)]
    exact selectRow_op .tftpOther 2 (by simp [udpRows, hmask, hne2, hne3])

theorem selectRow_byte (c : Session) (b : Byte) :
    (selectRow byteRows b.toNat).map TableRow.op = some (decodeByte c b).mnemonic := by
  have masks := byteMasks b.isLt
  by_cases hetx : b = etx
  · subst hetx
    rfl
  by_cases hlower : isLower b = true
  · rw [decodeByte_of_isLower c hlower]
    rw [isLower_iff] at hlower
    exact selectRow_op .tbyteLower 1 (by simp [byteRows, masks]; omega)
  by_cases hlf : b = lineFeed
  · subst hlf
    rfl
  by_cases hdel : b = delete
  · subst hdel
    rfl
  · rw [decodeByte_of_other c hetx hlower hlf hdel]
    rw [isLower_iff] at hlower
    have hne3 : b.toNat ≠ 0x03 := fun h => hetx (BitVec.eq_of_toNat_eq h)
    have hneLf : b.toNat ≠ 0x0A := fun h => hlf (BitVec.eq_of_toNat_eq h)
    have hneDel : b.toNat ≠ 0x7F := fun h => hdel (BitVec.eq_of_toNat_eq h)
    exact selectRow_op .tbytePass 9 (by simp [byteRows, masks]; omega)

/-! ## The stimulus of a word -/

theorem decodeTableWord_rd {w : Nat} (h : w < 65536) :
    decodeTableWord 17 w = some (decode Params.default (.bus (.rd (BitVec.ofNat 16 w)))) := by
  simp [decodeTableWord, wordStimulus, h]

theorem decodeTableWord_wr {w : Nat} (hlo : 65536 ≤ w) (hhi : w < 131072) :
    decodeTableWord 17 w = some (decode Params.default (.bus (.wr (BitVec.ofNat 16 w) 0x00))) := by
  simp [decodeTableWord, wordStimulus, Nat.not_lt.mpr hlo, hhi]

theorem decodeTableWord_opcode {w : Nat} (h : w < 65536) :
    decodeTableWord 16 w = some (decodeUdp 0 (opBytes (BitVec.ofNat 16 w) ++ [0x00, 0x00])) := by
  simp [decodeTableWord, wordStimulus, h, decode]

theorem decodeTableWord_byte {w : Nat} (h : w < 256) :
    decodeTableWord 8 w = some (decodeByte 0 (BitVec.ofNat 8 w)) := by
  simp [decodeTableWord, wordStimulus, h, decode]

/-- Settles O6, format by format: the mask of a row holds a range of words, and the smallest priority number among the
ranges a word lies in is the decoder's first test that succeeds. -/
theorem tableDecodesAsRanges : Obligations.TableDecodesAsRanges := by
  have word {n w : Nat} (h : w < 2 ^ n) : (BitVec.ofNat n w).toNat = w := by
    rw [BitVec.toNat_ofNat, Nat.mod_eq_of_lt h]
  refine ⟨fun w hw => ?bus, fun w hw => ?opcode, fun w hw => ?byte⟩
  case bus =>
    by_cases hrd : w < 2 ^ 16
    · rw [decodeTableWord_rd hrd, selectRow_rd (word hrd)]
      rfl
    · have hlo : 65536 ≤ w := Nat.not_lt.mp hrd
      have ha : (BitVec.ofNat 16 w).toNat + 0x10000 = w := by rw [BitVec.toNat_ofNat]; omega
      rw [decodeTableWord_wr hlo hw, selectRow_wr 0x00 ha]
      rfl
  case opcode =>
    have h := selectRow_opcode 0 (BitVec.ofNat 16 w)
    rw [word hw] at h
    rw [decodeTableWord_opcode hw, h]
    rfl
  case byte =>
    have h := selectRow_byte 0 (BitVec.ofNat 8 w)
    rw [word hw] at h
    rw [decodeTableWord_byte hw, h]
    rfl

/-- Settles O7: each word, written out from its row, against the decoder of its format. -/
theorem specWordsDecode : Obligations.SpecWordsDecode := by
  refine ⟨?_, ?_, ?_, ?_, ?_, ?_, ?_, ?_, ?_, ?_⟩ <;> decide

/-! ## Calls -/

theorem encode_format (p : Params) (i : Instr) : (encode p i).format = i.format := by
  cases i <;> rfl

/-- The operation a presentation selects has its format, because it is presented by it. -/
theorem decodePresentation_format (p : Params) (q : Presentation) : (decodePresentation p q).format = q.format := by
  rw [← encode_format p, (encodeOfDecode p q).2]

theorem Stimulus.format_ne_call (st : Stimulus) : st.format ≠ .call := by cases st <;> exact nofun

/-- Settles O8: the format of an operation is that of its presentation, and no stimulus has the format of calls; the
operations that make a call are that call by definition. -/
theorem internalOperationsOnlyCalled : Obligations.InternalOperationsOnlyCalled := by
  refine ⟨fun p st => ?stimuli, fun p c => ?calls, fun s c b => ?callers⟩
  case stimuli =>
    have hformat : (decode p st).format = st.format := decodePresentation_format p (.stimulus st)
    exact ⟨hformat, hformat ▸ Stimulus.format_ne_call st⟩
  case calls => exact ⟨decodePresentation_format p (.call c), (encodeOfDecode p (.call c)).2⟩
  case callers =>
    exact ⟨rfl, exec_tbyteLower c b s, exec_tbyteLf c s, exec_tbyteDel c s, exec_tbytePass c b s, rfl, rfl, _, rfl, rfl⟩

end Sys2Proof.Machine
end

section
/-! SUPPORT. The keyboard and display registers (41_pia.md), the Telnet filter (44_telnet.md R191) and the mailbox seen from
outside (41_pia.md R129). -/

namespace Sys2Proof.Machine

/-! ## The registers of the I/O window -/

theorem exec_rdKbd (s : State) : exec .rdKbd s = .next (s.takeKey.reply s.kbd) := rfl

theorem exec_rdKbdcr (s : State) : exec .rdKbdcr s = .next (s.reply s.kbdcr) := rfl

theorem exec_rdDspcr (s : State) : exec .rdDspcr s = .next (s.reply s.dspcr) := rfl

/-- Settles O19: the reply is the key itself, and the flag alone is cleared. -/
theorem keyboardReadResult : Obligations.KeyboardReadResult := exec_rdKbd

/-- Settles O20: both operations are a reply of the register. -/
theorem controlReadResult : Obligations.ControlReadResult := fun s => ⟨exec_rdKbdcr s, exec_rdDspcr s⟩

theorem exec_rdDsp (s : State) : exec .rdDsp s = .next (rdDsp s) := rfl

theorem rdDsp_any {s : State} (h : s.params.dspReadback = .any) : rdDsp s = s.replyDraw := by rw [rdDsp, h]

theorem rdDsp_stored {s : State} (h : s.params.dspReadback = .stored) : rdDsp s = s.reply s.dsp := by rw [rdDsp, h]

theorem rdDsp_zero {s : State} (h : s.params.dspReadback = .zero) : rdDsp s = s.reply 0x00 := by rw [rdDsp, h]

/-- Settles O21, mode by mode. -/
theorem displayReadResult : Obligations.DisplayReadResult := by
  intro s
  refine ⟨fun hany => ⟨Config.draw s.draws, ?_⟩, fun hstored => ?_, fun hzero => ?_⟩
  · rw [exec_rdDsp, rdDsp_any hany, State.replyDraw]
  · rw [exec_rdDsp, rdDsp_stored hstored, State.reply]
  · rw [exec_rdDsp, rdDsp_zero hzero, State.reply]

theorem exec_rdIox (sub : Fin 16) (s : State) : exec (.rdIox sub) s = .next s.replyDraw := rfl

theorem exec_wrIox (sub : Fin 16) (v : Byte) (s : State) : exec (.wrIox sub v) s = .next s := rfl

/-- Settles O22: the read is one draw, the write nothing. -/
theorem unregisteredIoResult : Obligations.UnregisteredIoResult :=
  fun sub v s => ⟨⟨Config.draw s.draws, exec_rdIox sub s⟩, exec_wrIox sub v s⟩

/-- `WR.DSP` is `PUTC` of the byte with its top bit inverted, after `DSP` was set (R125). -/
theorem exec_wrDsp (v : Byte) (s : State) : exec (.wrDsp v) s = exec (.putc (v ^^^ topBit)) (s.setDsp v) := rfl

/-- Settles O23: the state is that of the call of `PUTC`, which leaves `DSP` as it was set. -/
theorem displayWriteResult : Obligations.DisplayWriteResult :=
  fun v s => ⟨wrDsp v s, exec_wrDsp v s, rfl, wrDsp_dsp v s, wrDsp_frame v s⟩

/-! ## The filter -/

theorem telnetFilter_of_isLower {b : Byte} (h : isLower b = true) : telnetFilter b = b ^^^ caseBit := if_pos h

@[simp] theorem telnetFilter_lineFeed : telnetFilter lineFeed = carriageReturn := rfl

@[simp] theorem telnetFilter_delete : telnetFilter delete = underscore := rfl

theorem telnetFilter_of_other {b : Byte} (hlower : ¬ isLower b = true) (hlf : b ≠ lineFeed) (hdel : b ≠ delete) :
    telnetFilter b = b := by
  rw [telnetFilter, if_neg hlower, if_neg hlf, if_neg hdel]

/-- A lower-case letter has bit 5 set, so inverting it subtracts 0x20. -/
theorem toNat_xor_caseBit_of_isLower : ∀ b : Byte, isLower b = true → (b ^^^ caseBit).toNat = b.toNat - 0x20 := by
  decide

/-- What the filter answers it keeps: an upper-case letter, carriage-return and underscore are in no class that it changes. -/
theorem telnetFilter_idem (b : Byte) : telnetFilter (telnetFilter b) = telnetFilter b := by
  by_cases hlower : isLower b = true
  · rw [telnetFilter_of_isLower hlower]
    have hupper := toNat_xor_caseBit_of_isLower b hlower
    rw [isLower_iff] at hlower
    have hne {d : Byte} (hd : d.toNat < 0x41 ∨ 0x5A < d.toNat) : b ^^^ caseBit ≠ d := by
      rintro rfl
      omega
    exact telnetFilter_of_other (by rw [isLower_iff]; omega) (hne (by decide)) (hne (by decide))
  by_cases hlf : b = lineFeed
  · rw [hlf]
    rfl
  by_cases hdel : b = delete
  · rw [hdel]
    rfl
  · rw [telnetFilter_of_other hlower hlf hdel, telnetFilter_of_other hlower hlf hdel]

/-- A received byte but `ETX` is a deposit of its filtered value, whichever class decodes it (R191, R193 to R196). -/
theorem exec_decodeByte (c : Session) {b : Byte} (h : b ≠ etx) (s : State) :
    exec (decodeByte c b) s = .next (s.putKey (telnetFilter b)) := by
  by_cases hlower : isLower b = true
  · rw [decodeByte_of_isLower c hlower, telnetFilter_of_isLower hlower]
    exact exec_tbyteLower c b s
  by_cases hlf : b = lineFeed
  · subst hlf
    exact exec_tbyteLf c s
  by_cases hdel : b = delete
  · subst hdel
    exact exec_tbyteDel c s
  · rw [decodeByte_of_other c h hlower hlf hdel, telnetFilter_of_other hlower hlf hdel]
    exact exec_tbytePass c b s

/-- Settles O43: the deposit, and the filter class by class. -/
theorem streamByteBecomesFilteredKey : Obligations.StreamByteBecomesFilteredKey := by
  intro s c b h
  refine ⟨exec_decodeByte c h s, telnetFilter_idem b, ?lower, ?lineFeed, ?delete, ?other⟩
  case lower =>
    intro hrange
    have hlower := isLower_iff.mpr hrange
    rw [telnetFilter_of_isLower hlower]
    exact toNat_xor_caseBit_of_isLower b hlower
  case lineFeed =>
    rintro rfl
    exact telnetFilter_lineFeed
  case delete =>
    rintro rfl
    exact telnetFilter_delete
  case other => exact fun hrange => telnetFilter_of_other (mt isLower_iff.mp hrange)

/-! ## Steps of the mailbox -/

theorem step_tcpb {s : State} {c : Session} {b : Byte} {rest : List Stimulus} (h : s.inbox = .tcpb c b :: rest)
    (hb : b ≠ etx) : step s = .next ((s.withEnv rest s.cpu).putKey (telnetFilter b)) :=
  (step_of_inbox h).trans (exec_decodeByte c hb _)

theorem step_rdKbdcr {s : State} {a : Addr} {rest : List Stimulus} (h : s.inbox = .bus (.rd a) :: rest)
    (ha : a.toNat = s.params.ioBase + 1) : step s = .next ((s.withEnv rest s.cpu).reply s.kbdcr) := by
  rw [step_of_inbox h, decode_rd_kbdcr ha]
  rfl

theorem step_rdKbd {s : State} {a : Addr} {rest : List Stimulus} (h : s.inbox = .bus (.rd a) :: rest)
    (ha : a.toNat = s.params.ioBase) : step s = .next ((s.withEnv rest s.cpu).takeKey.reply s.kbd) := by
  rw [step_of_inbox h, decode_rd_kbd ha]
  rfl

/-- Two received bytes leave the second key alone. -/
theorem core_run_two_keys {s : State} {c c' : Session} {a b : Byte} {rest : List Stimulus} (n : Nat)
    (h : s.inbox = .tcpb c a :: .tcpb c' b :: rest) (ha : a ≠ etx) (hb : b ≠ etx) :
    Host.Core.run core (n + 2) s = Host.Core.run core n ((s.withEnv rest s.cpu).putKey (telnetFilter b)) :=
  calc Host.Core.run core (n + 2) s
      = Host.Core.run core (n + 1) ((s.withEnv (.tcpb c' b :: rest) s.cpu).putKey (telnetFilter a)) :=
        core_run_succ (step_tcpb h ha)
    _ = Host.Core.run core n ((s.withEnv rest s.cpu).putKey (telnetFilter b)) := core_run_succ (step_tcpb rfl hb)

/-- The flag, the key, and the flag cleared by the read of the key. -/
theorem core_run_poll {s : State} {k k' : Addr} {rest : List Stimulus}
    (h : s.inbox = .bus (.rd k') :: .bus (.rd k) :: .bus (.rd k') :: rest) (hk : k.toNat = s.params.ioBase)
    (hk' : k'.toNat = s.params.ioBase + 1) :
    Host.Core.run core 3 s =
      .next ((((s.withEnv rest s.cpu).reply s.kbdcr).takeKey.reply s.kbd).reply keyIdle) :=
  calc Host.Core.run core 3 s
      = Host.Core.run core 2 ((s.withEnv (.bus (.rd k) :: .bus (.rd k') :: rest) s.cpu).reply s.kbdcr) :=
        core_run_succ (step_rdKbdcr h hk')
    _ = Host.Core.run core 1 (((s.withEnv (.bus (.rd k') :: rest) s.cpu).reply s.kbdcr).takeKey.reply s.kbd) :=
        core_run_succ (step_rdKbd rfl hk)
    _ = .next ((((s.withEnv rest s.cpu).reply s.kbdcr).takeKey.reply s.kbd).reply keyIdle) :=
        core_run_succ (step_rdKbdcr rfl hk')

/-- Settles O25: the second deposit overwrites the first, and the reads find its key and take it. -/
theorem mailboxKeepsLastKey : Obligations.MailboxKeepsLastKey := by
  intro s c c' a b k k' rest ha hb hk hk' h
  refine ⟨_, (core_run_two_keys 3 h ha hb).trans (core_run_poll rfl hk hk'), ?replies, rfl⟩
  case replies =>
    simp only [State.reply_replies, State.takeKey_replies, List.append_assoc]
    rfl

/-! ## Connections -/

theorem exec_connect (c : Session) (s : State) : exec (.connect c) s = .next (s.emit (.tcp c greeting)) := rfl

/-- Settles O41: the one output is the greeting, whose bytes are those of R190. -/
theorem connectResult : Obligations.ConnectResult := exec_connect

end Sys2Proof.Machine
end

section
/-! SUPPORT. The terminal (42_terminal.md): `PUTC` as a wrap and a store, its byte classes, and the other operations on the
cursor and the grid. -/

namespace Sys2Proof.Machine

/-! ## The byte classes -/

theorem isNewLine_iff {b : Byte} : isNewLine b = true ↔ b = 0x0D ∨ b = 0x0A := by simp [isNewLine]

theorem isPrintable_iff {b : Byte} : isPrintable b = true ↔ 0x20 ≤ b.toNat ∧ b.toNat ≤ 0x7E := by simp [isPrintable]

theorem isNewLine_eq_putcClass (b : Byte) : isNewLine b = decide (putcClass b = .newLine) := by
  unfold putcClass
  cases isNewLine b <;> cases isPrintable b <;> rfl

/-- A new-line byte is not printable, so the order of the two tests does not matter. -/
theorem isPrintable_eq_putcClass (b : Byte) : isPrintable b = decide (putcClass b = .printable) := by
  unfold putcClass
  cases hline : isNewLine b with
  | false => cases isPrintable b <;> rfl
  | true =>
    rw [isPrintable_of_isNewLine hline]
    rfl

/-! ## Step 2: the wrap -/

/-- The state after step 2 of `PUTC` (R140). -/
def State.wrapped (s : State) (b : Byte) : State := if s.wraps b then s.newLine else s

theorem State.wraps_iff {s : State} {b : Byte} : s.wraps b = true ↔ s.col.val = 40 ∨ b = 0x0D ∨ b = 0x0A := by
  have := s.col.isLt
  have hcol : 39 < s.col.val ↔ s.col.val = 40 := by omega
  rw [State.wraps, Bool.or_eq_true, decide_eq_true_iff, isNewLine_iff, hcol]

theorem State.wrapped_of_wraps {s : State} {b : Byte} (h : s.wraps b = true) : s.wrapped b = s.newLine := if_pos h

theorem State.wrapped_of_not_wraps {s : State} {b : Byte} (h : ¬ s.wraps b = true) : s.wrapped b = s := if_neg h

theorem State.wrapped_col_lt (s : State) (b : Byte) : (s.wrapped b).col.val < 40 := s.col_lt_after_wrap b

theorem State.wrapped_col (s : State) (b : Byte) :
    (s.wrapped b).col.val = if s.wraps b then 0 else s.col.val := by
  unfold State.wrapped
  split
  · rw [State.newLine_col]
    rfl
  · rfl

theorem State.wrapped_row (s : State) (b : Byte) :
    (s.wrapped b).row.val = if s.wraps b then min (s.row.val + 1) 23 else s.row.val := by
  have := s.row.isLt
  unfold State.wrapped
  split
  · rw [State.newLine_row]
    split <;> omega
  · rfl

theorem State.wrapped_code (s : State) (b : Byte) (r : Fin 24) (c : Fin 40) :
    (s.wrapped b).cell.code r c =
      if s.wraps b = true ∧ s.row.val = 23 then
        if h : r.val < 23 then s.cell.code ⟨r.val + 1, by omega⟩ c else blankCode
      else s.cell.code r c := by
  by_cases hwrap : s.wraps b = true
  · rw [State.wrapped_of_wraps hwrap, State.newLine_cell]
    by_cases hrow : s.row.val = 23
    · rw [if_pos hrow, if_pos ⟨hwrap, hrow⟩, Grid.code_scroll]
    · rw [if_neg hrow, if_neg (fun h => hrow h.2)]
  · rw [State.wrapped_of_not_wraps hwrap, if_neg (fun h => hwrap h.1)]

/-! ## `PUTC` from its two middle steps -/

theorem State.newLine_setDis (s : State) (d : Bool) : (s.setDis d).newLine = s.newLine.setDis d := by
  unfold State.newLine State.setDis
  dsimp only
  split <;> rfl

theorem State.storeCode_setDis (s : State) (v : Code) (d : Bool) :
    (s.setDis d).storeCode v = (s.storeCode v).setDis d := by
  unfold State.storeCode State.setDis
  dsimp only
  split <;> rfl

theorem State.wrapped_setDis (s : State) (b : Byte) (d : Bool) :
    (if s.wraps b then (s.setDis d).newLine else s.setDis d) = (s.wrapped b).setDis d := by
  unfold State.wrapped
  split
  · exact s.newLine_setDis d
  · rfl

/-- The inhibit that step 1 sets is seen by neither step, and step 4 clears it. -/
theorem State.putChar_of_isPrintable (s : State) {b : Byte} (h : isPrintable b = true) :
    s.putChar b = ((s.wrapped b).storeCode (cellCode b)).setDis false := by
  rw [State.putChar_eq]
  dsimp only
  rw [if_pos h, State.wrapped_setDis, State.storeCode_setDis]
  rfl

theorem State.putChar_of_not_isPrintable (s : State) {b : Byte} (h : ¬ isPrintable b = true) :
    s.putChar b = (s.wrapped b).setDis false := by
  rw [State.putChar_eq]
  dsimp only
  rw [if_neg h, State.wrapped_setDis]
  rfl

theorem State.putChar_row (s : State) (b : Byte) : (s.putChar b).row = (s.wrapped b).row := by
  by_cases h : isPrintable b = true
  · rw [s.putChar_of_isPrintable h, State.setDis_row, State.storeCode_row]
  · rw [s.putChar_of_not_isPrintable h, State.setDis_row]

theorem State.putChar_col (s : State) (b : Byte) :
    (s.putChar b).col.val = (s.wrapped b).col.val + if isPrintable b then 1 else 0 := by
  by_cases h : isPrintable b = true
  · rw [s.putChar_of_isPrintable h, State.setDis_col, State.storeCode_col _ _ (s.wrapped_col_lt b), if_pos h]
  · rw [s.putChar_of_not_isPrintable h, State.setDis_col, if_neg h, Nat.add_zero]

theorem State.putChar_code (s : State) (b : Byte) (r : Fin 24) (c : Fin 40) :
    (s.putChar b).cell.code r c =
      if isPrintable b = true ∧ r = (s.wrapped b).row ∧ c.val = (s.wrapped b).col.val then cellCode b
      else (s.wrapped b).cell.code r c := by
  by_cases h : isPrintable b = true
  · rw [s.putChar_of_isPrintable h, State.setDis_cell, State.storeCode_code _ _ (s.wrapped_col_lt b)]
    simp only [h, true_and]
  · rw [s.putChar_of_not_isPrintable h, State.setDis_cell, if_neg (fun hp => h hp.1)]

theorem State.putChar_frame (s : State) (b : Byte) :
    { s.putChar b with cell := s.cell, col := s.col, row := s.row, dis := s.dis } = s := by
  cases s
  simp

theorem exec_putc (b : Byte) (s : State) : exec (.putc b) s = .next (s.putChar b) := rfl

/-- Settles O26: the row, column and cells between the two steps are those of the wrap. -/
theorem putcResult : Obligations.PutcResult := by
  intro b s
  refine ⟨s.putChar b, exec_putc b s, s.putChar_frame b, s.putChar_dis b, ?_⟩
  intro row1 col1 cell1 hrow hcol hcell
  simp only [← State.wraps_iff] at hrow hcol hcell
  rw [← State.wrapped_row] at hrow
  rw [← State.wrapped_col] at hcol
  have hcell' (r : Fin 24) (c : Fin 40) : cell1 r c = (s.wrapped b).cell.code r c :=
    (hcell r c).trans (s.wrapped_code b r c).symm
  subst hrow hcol
  rw [← isPrintable_iff, State.putChar_row]
  refine ⟨rfl, fun hp => ⟨?_, fun r c => ?_⟩, fun hp => ⟨?_, fun r c => ?_⟩⟩
  · rw [State.putChar_col, if_pos hp]
  · rw [State.putChar_code, hcell']
    simp only [hp, true_and, Fin.ext_iff]
    rfl
  · rw [State.putChar_col, if_neg hp, Nat.add_zero]
  · rw [State.putChar_code, if_neg (fun h => hp h.1), hcell']

/-- Settles O28: a printable byte at column 40 takes the wrap and is stored at column 0. -/
theorem wrapAfterFullRow : Obligations.WrapAfterFullRow := by
  intro b s hp hcol
  have hwrap : s.wraps b = true := State.wraps_iff.mpr (.inl hcol)
  have hcol1 : (s.wrapped b).col.val = 0 := by rw [State.wrapped_col, if_pos hwrap]
  refine ⟨s.putChar b, exec_putc b s, by rw [State.putChar_col, hcol1, if_pos hp], fun hrow => ?below, fun hrow => ?last⟩
  case below =>
    have hrow1 : (s.wrapped b).row.val = s.row.val + 1 := by rw [State.wrapped_row, if_pos hwrap]; omega
    refine ⟨by rw [State.putChar_row, hrow1], fun r c => ?_⟩
    have hcell : (s.wrapped b).cell.code r c = s.cell.code r c := by
      rw [State.wrapped_code, if_neg (fun h => hrow.ne h.2)]
    simp only [State.putChar_code, Fin.ext_iff, hrow1, hcol1, hcell, hp, true_and]
    rfl
  case last =>
    have hrow1 : (s.wrapped b).row.val = 23 := by rw [State.wrapped_row, if_pos hwrap]; omega
    refine ⟨by rw [State.putChar_row, hrow1], fun r c => ?_⟩
    have hcell := s.wrapped_code b r c
    rw [if_pos ⟨hwrap, hrow⟩] at hcell
    simp only [State.putChar_code, Fin.ext_iff, hrow1, hcol1, hcell, hp, true_and]
    by_cases hr : r.val < 23
    · rw [if_neg (fun h => hr.ne h.1), dif_pos hr, dif_pos hr]
    · have hr' : r.val = 23 := by omega
      rw [dif_neg hr, dif_neg hr]
      simp only [hr', true_and]
      rfl

theorem State.putChar_of_isNewLine (s : State) {b : Byte} (h : isNewLine b = true) :
    s.putChar b = s.newLine.setDis false := by
  have hp : ¬ isPrintable b = true := by simp [isPrintable_of_isNewLine h]
  have hwrap : s.wraps b = true := by rw [State.wraps, h, Bool.or_true]
  rw [s.putChar_of_not_isPrintable hp, State.wrapped_of_wraps hwrap]

/-- Settles O29: CR and LF take the same new line and store nothing; another byte that is not printable does neither. -/
theorem newLineAndIgnoredBytes : Obligations.NewLineAndIgnoredBytes := by
  intro s
  refine ⟨?newLine, fun b hp hcr hlf hcol => ?ignored⟩
  case newLine => rw [exec_putc, exec_putc, s.putChar_of_isNewLine rfl, s.putChar_of_isNewLine rfl]
  case ignored =>
    have hwrap : ¬ s.wraps b = true := by
      rw [State.wraps_iff]
      simp only [hcr, hlf, or_false]
      omega
    rw [exec_putc, s.putChar_of_not_isPrintable (by simp [hp]), State.wrapped_of_not_wraps hwrap]
    rfl

/-! ## Writing several bytes -/

/-- The state after the bytes are written one after another. -/
def State.putChars (s : State) (bs : List Byte) : State := bs.foldl State.putChar s

@[simp] theorem State.putChars_nil (s : State) : s.putChars [] = s := rfl

@[simp] theorem State.putChars_cons (s : State) (b : Byte) (bs : List Byte) :
    s.putChars (b :: bs) = (s.putChar b).putChars bs := rfl

theorem execAll_putc (bs : List Byte) (s : State) : execAll (bs.map .putc) s = .next (s.putChars bs) := by
  induction bs generalizing s with
  | nil => rfl
  | cons b bs ih => exact ih (s.putChar b)

/-- A printable byte at a column inside the grid is stored at the cursor, which advances. -/
theorem State.putChar_inside {s : State} {b : Byte} (hp : isPrintable b = true) (hcol : s.col.val < 40) :
    (s.putChar b).row = s.row ∧ (s.putChar b).col.val = s.col.val + 1 ∧
      ∀ r c, (s.putChar b).cell.code r c = if r = s.row ∧ c.val = s.col.val then cellCode b else s.cell.code r c := by
  have hline : isNewLine b = false := Bool.eq_false_iff.mpr fun h => by simp [isPrintable_of_isNewLine h] at hp
  have hwrap : ¬ s.wraps b = true := by
    simp only [State.wraps, hline, Bool.or_false, decide_eq_true_iff]
    omega
  have hsame := State.wrapped_of_not_wraps hwrap
  refine ⟨by rw [State.putChar_row, hsame], by rw [State.putChar_col, hsame, if_pos hp], fun r c => ?_⟩
  rw [State.putChar_code, hsame]
  simp only [hp, true_and]

/-- Printable bytes that fit in the row stand from the cursor on. -/
theorem State.putChars_inside {s : State} {bs : List Byte} (hp : ∀ b ∈ bs, isPrintable b = true)
    (hcol : s.col.val + bs.length ≤ 40) :
    (s.putChars bs).row = s.row ∧ (s.putChars bs).col.val = s.col.val + bs.length ∧
      ∀ (r : Fin 24) (c : Fin 40), (s.putChars bs).cell.code r c =
        if h : r = s.row ∧ s.col.val ≤ c.val ∧ c.val < s.col.val + bs.length then
          cellCode (bs[c.val - s.col.val]'(by omega))
        else s.cell.code r c := by
  induction bs generalizing s with
  | nil =>
    refine ⟨rfl, rfl, fun r c => ?_⟩
    rw [dif_neg (by rintro ⟨-, hlo, hhi⟩; exact absurd hhi (Nat.not_lt.mpr hlo)), State.putChars_nil]
  | cons b bs ih =>
    rw [List.length_cons] at hcol
    obtain ⟨hb, hbs⟩ := List.forall_mem_cons.mp hp
    obtain ⟨hrow1, hcol1, hcell1⟩ := State.putChar_inside hb (show s.col.val < 40 by omega)
    obtain ⟨hrow, hcolEnd, hcell⟩ := ih (s := s.putChar b) hbs (by omega)
    refine ⟨hrow.trans hrow1, by rw [State.putChars_cons, hcolEnd, hcol1, List.length_cons]; omega, fun r c => ?_⟩
    rw [State.putChars_cons, hcell, hcell1]
    simp only [hrow1, hcol1, List.length_cons]
    by_cases hr : r = s.row
    · by_cases hc : c.val = s.col.val
      · simp [hr, hc]
      · by_cases hin : s.col.val + 1 ≤ c.val ∧ c.val < s.col.val + 1 + bs.length
        · rw [dif_pos ⟨hr, hin⟩, dif_pos ⟨hr, by omega, by omega⟩]
          have hidx : c.val - s.col.val = c.val - (s.col.val + 1) + 1 := by omega
          simp only [hidx, List.getElem_cons_succ]
        · rw [dif_neg (fun h => hin h.2), if_neg (fun h => hc h.2), dif_neg (by omega)]
    · rw [dif_neg (fun h => hr h.1), if_neg (fun h => hr h.1), dif_neg (fun h => hr h.1)]

/-- Settles O27: the bytes stand from column 0 on, and the row is not left. -/
theorem printedRow : Obligations.PrintedRow := by
  intro s bs hlen hp hcol
  obtain ⟨hrow, hcolEnd, hcell⟩ := State.putChars_inside hp (s := s) (by omega)
  simp only [hcol, Nat.zero_add, Nat.zero_le, true_and, Nat.sub_zero] at hcolEnd hcell
  refine ⟨s.putChars bs, execAll_putc bs s, hrow, hcolEnd, fun c hc => ?_, fun r c hout => ?_⟩
  · rw [hcell, dif_pos ⟨rfl, hc⟩]
    rfl
  · rw [hcell, dif_neg]
    rintro ⟨hr, hc⟩
    exact hout.elim (fun h => h hr) (by omega)

/-! ## Scrolls and the byte classes -/

theorem State.scrollsOn_iff {s : State} {b : Byte} :
    s.scrollsOn b = true ↔ s.wraps b = true ∧ s.row.val = 23 := by
  rw [State.wraps_iff, ← isNewLine_iff]
  simp [State.scrollsOn, and_comm]

/-- Two states have the same cursor. -/
def SameCursor (s s' : State) : Prop := s.col = s'.col ∧ s.row = s'.row

theorem SameCursor.wraps_eq {s s' : State} {b b' : Byte} (h : SameCursor s s') (hb : putcClass b = putcClass b') :
    s.wraps b = s'.wraps b' := by
  rw [State.wraps, State.wraps, h.1, isNewLine_eq_putcClass, isNewLine_eq_putcClass, hb]

theorem SameCursor.scrollsOn_eq {s s' : State} {b b' : Byte} (h : SameCursor s s') (hb : putcClass b = putcClass b') :
    s.scrollsOn b = s'.scrollsOn b' := by
  rw [State.scrollsOn, State.scrollsOn, h.1, h.2, isNewLine_eq_putcClass, isNewLine_eq_putcClass, hb]

/-- The cursor after a write is a function of the cursor before it and the class of the byte. -/
theorem SameCursor.putChar {s s' : State} {b b' : Byte} (h : SameCursor s s') (hb : putcClass b = putcClass b') :
    SameCursor (s.putChar b) (s'.putChar b') := by
  refine ⟨Fin.ext ?_, Fin.ext ?_⟩
  · rw [State.putChar_col, State.putChar_col, State.wrapped_col, State.wrapped_col, h.wraps_eq hb, h.1,
      isPrintable_eq_putcClass, isPrintable_eq_putcClass, hb]
  · rw [State.putChar_row, State.putChar_row, State.wrapped_row, State.wrapped_row, h.wraps_eq hb, h.2]

theorem scrollCount_cons (b : Byte) (bs : List Byte) (s : State) :
    scrollCount (b :: bs) s = (if s.scrollsOn b then 1 else 0) + scrollCount bs (s.putChar b) := rfl

/-- Byte sequences of the same classes keep two equal cursors equal and scroll equally often. -/
theorem SameCursor.putChars {s s' : State} {bs bs' : List Byte} (h : SameCursor s s')
    (hbs : bs.map putcClass = bs'.map putcClass) :
    scrollCount bs s = scrollCount bs' s' ∧ SameCursor (s.putChars bs) (s'.putChars bs') := by
  induction bs generalizing s s' bs' with
  | nil =>
    obtain rfl : bs' = [] := List.map_eq_nil_iff.mp hbs.symm
    exact ⟨rfl, h⟩
  | cons b bs ih =>
    cases bs' with
    | nil => cases hbs
    | cons b' bs' =>
      obtain ⟨hb, hrest⟩ := List.cons.inj hbs
      obtain ⟨hcount, hcursor⟩ := ih (h.putChar hb) hrest
      exact ⟨by rw [scrollCount_cons, scrollCount_cons, h.scrollsOn_eq hb, hcount], hcursor⟩

/-- Settles O30: the cursor and the scrolls follow the classes; a scroll is the wrap on row 23, after which a byte is stored
on row 23 at most. -/
theorem scrollsFollowByteClasses : Obligations.ScrollsFollowByteClasses := by
  refine ⟨fun s s' bs bs' hcol hrow hbs => ?classes, fun s b => ?cells⟩
  case classes =>
    obtain ⟨hcount, hcol', hrow'⟩ := SameCursor.putChars (s := s) (s' := s') ⟨hcol, hrow⟩ hbs
    exact ⟨hcount, s.putChars bs, s'.putChars bs', execAll_putc bs s, execAll_putc bs' s', hcol', hrow'⟩
  case cells =>
    refine ⟨s.putChar b, exec_putc b s, fun hscroll r c hr => ?scrolled, fun hscroll r c hout => ?kept⟩
    case scrolled =>
      obtain ⟨hwrap, hrow⟩ := State.scrollsOn_iff.mp hscroll
      have hrow1 : (s.wrapped b).row.val = 23 := by rw [State.wrapped_row, if_pos hwrap]; omega
      have hne : r ≠ (s.wrapped b).row := fun h => by omega
      rw [State.putChar_code, if_neg (fun h => hne h.2.1), State.wrapped_code, if_pos ⟨hwrap, hrow⟩, dif_pos hr]
    case kept =>
      have hkeep : ¬ (s.wraps b = true ∧ s.row.val = 23) := by simp [← State.scrollsOn_iff, hscroll]
      have hstore : ¬ (isPrintable b = true ∧ r = (s.wrapped b).row ∧ c.val = (s.wrapped b).col.val) := by
        rintro ⟨hp, hr, hc⟩
        exact hout ⟨by rw [hr, State.putChar_row], by rw [State.putChar_col, if_pos hp, hc]⟩
      rw [State.putChar_code, if_neg hstore, State.wrapped_code, if_neg hkeep]

/-! ## The cursor and the phase -/

/-- Settles O31: the phase alone is negated. -/
theorem blinkResult : Obligations.BlinkResult := fun _ => rfl

theorem State.setCursor_frame (s : State) (x y : Byte) :
    { s.setCursor x y with col := s.col, row := s.row } = s := by
  cases s
  simp

/-- Settles O32, by the two ranges of `y`. -/
theorem setcurResult : Obligations.SetcurResult := by
  intro x y s
  refine ⟨s.setCursor x y, rfl, s.setCursor_frame x y, fun hy => ?inside, fun hy => ?outside⟩
  case inside => rw [State.setCursor_col, State.setCursor_row, if_pos hy, if_pos hy]; exact ⟨rfl, rfl⟩
  case outside =>
    have hy' : ¬ y.toNat < 24 := by omega
    refine ⟨by rw [State.setCursor_col, if_neg hy'], Fin.ext ?_⟩
    rw [State.setCursor_row, if_neg hy']

/-- Settles O33: the direct clearing, whose cells are those of the blank grid. -/
theorem clsResult : Obligations.ClsResult :=
  fun s => ⟨s.clearScreen, rfl, rfl, Grid.code_blank, rfl, rfl, rfl⟩

/-- The cursor is shown at a cell: the phase is on, the inhibit off, and the cell is the cursor's. -/
theorem State.view_eq (s : State) (r : Fin 24) (c : Fin 40) :
    s.view r c = if s.vis = true ∧ s.dis = false ∧ r = s.row ∧ c.val = s.col.val then s.params.cursorGlyph
      else s.cell.code r c := by
  simp only [State.view, Bool.and_eq_true, Bool.not_eq_true', decide_eq_true_eq, Fin.ext_iff, and_assoc]

/-- Settles O35: no column of the grid is 40, where the cursor is then shown nowhere. -/
theorem viewRule : Obligations.ViewRule := by
  intro s r c
  rw [State.view_eq]
  refine ⟨fun h => if_pos h, fun h => if_neg h, fun hcol => if_neg ?_⟩
  rintro ⟨-, -, -, hc⟩
  omega

end Sys2Proof.Machine
end

section
/-! SUPPORT. The rule's own `CLS` (42_terminal.md R145): 960 blanks through `PUTC` blank the grid from every cursor position.
The cursor is followed by its position in reading order: a blank goes to the cell at that position and moves on by one, and
past the last cell the grid scrolls first. -/

namespace Sys2Proof.Machine

/-! ## The state outside the terminal -/

/-- The state with another's terminal: grid, cursor and inhibit. -/
def State.withTerminal (t s : State) : State := { t with cell := s.cell, col := s.col, row := s.row, dis := s.dis }

theorem State.putChars_withTerminal (s : State) (bs : List Byte) : (s.putChars bs).withTerminal s = s := by
  induction bs generalizing s with
  | nil => rfl
  | cons b bs ih =>
    calc ((s.putChar b).putChars bs).withTerminal s
        = (((s.putChar b).putChars bs).withTerminal (s.putChar b)).withTerminal s := rfl
      _ = (s.putChar b).withTerminal s := by rw [ih]
      _ = s := s.putChar_frame b

/-- A state that differs from `s` in the terminal alone, and whose grid is blank, is `s` cleared once its cursor is home. -/
theorem State.setCursor_home_eq_clearScreen {s t : State} (h : t.withTerminal s = s) (hcell : t.cell = Grid.blank)
    (hdis : t.dis = false) : t.setCursor 0x00 0x00 = s.clearScreen :=
  calc t.setCursor 0x00 0x00 = { t with col := 0, row := 0 } := rfl
    _ = { t with cell := Grid.blank, col := 0, row := 0, dis := false } := by rw [← hcell, ← hdis]
    _ = (t.withTerminal s).clearScreen := rfl
    _ = s.clearScreen := by rw [h]

/-! ## The cursor in reading order -/

/-- The cells before the cursor in reading order; column 40 of a row is column 0 of the next. -/
def State.pos (s : State) : Nat := 40 * s.row.val + s.col.val

theorem State.pos_le (s : State) : s.pos ≤ 960 := by
  unfold State.pos
  omega

theorem State.wraps_blank_iff {s : State} : s.wraps 0x20 = true ↔ s.col.val = 40 := by
  simp [State.wraps_iff]

/-- Before the end of the grid a blank goes to the cell at the cursor's position. -/
theorem State.putChar_blank_of_pos_lt {s : State} (h : s.pos < 960) :
    (s.putChar 0x20).pos = s.pos + 1 ∧ ∀ (r : Fin 24) (c : Fin 40), (s.putChar 0x20).cell.code r c =
      if 40 * r.val + c.val = s.pos then blankCode else s.cell.code r c := by
  unfold State.pos at h
  have hkeep : ¬ (s.wraps 0x20 = true ∧ s.row.val = 23) := by rw [State.wraps_blank_iff]; omega
  have hpos : 40 * (s.wrapped 0x20).row.val + (s.wrapped 0x20).col.val = s.pos := by
    rw [State.wrapped_row, State.wrapped_col, State.pos]
    simp only [State.wraps_blank_iff]
    split <;> omega
  have hcol := s.wrapped_col_lt 0x20
  refine ⟨?_, fun r c => ?_⟩
  · rw [State.pos, State.putChar_row, State.putChar_col, if_pos (by decide), ← hpos, Nat.add_assoc]
  · have hcell : (r = (s.wrapped 0x20).row ∧ c.val = (s.wrapped 0x20).col.val) ↔ 40 * r.val + c.val = s.pos := by
      rw [← hpos, Fin.ext_iff]
      omega
    rw [State.putChar_code, State.wrapped_code, if_neg hkeep]
    simp only [hcell, show isPrintable 0x20 = true by decide, true_and]
    rfl

/-- At the end of the grid a blank scrolls, and the row it goes to is blank. -/
theorem State.putChar_blank_of_pos_eq {s : State} (h : s.pos = 960) :
    (s.putChar 0x20).pos = 921 ∧ ∀ (r : Fin 24) (c : Fin 40), (s.putChar 0x20).cell.code r c =
      if h : r.val < 23 then s.cell.code ⟨r.val + 1, by omega⟩ c else blankCode := by
  unfold State.pos at h
  have hrow : s.row.val = 23 := by omega
  have hwrap : s.wraps 0x20 = true := State.wraps_blank_iff.mpr (by omega)
  have hrow1 : (s.wrapped 0x20).row.val = 23 := by rw [State.wrapped_row, if_pos hwrap, hrow]; rfl
  have hcol1 : (s.wrapped 0x20).col.val = 0 := by rw [State.wrapped_col, if_pos hwrap]
  refine ⟨?_, fun r c => ?_⟩
  · rw [State.pos, State.putChar_row, State.putChar_col, if_pos (by decide), hrow1, hcol1]
  · have hcell := s.wrapped_code 0x20 r c
    rw [if_pos ⟨hwrap, hrow⟩] at hcell
    rw [State.putChar_code, hcell]
    by_cases hr : r.val < 23
    · rw [if_neg (fun h => by rw [h.2.1] at hr; omega)]
    · rw [dif_neg hr]
      exact ite_self _

/-! ## Many blanks -/

/-- After `n` blanks from position `start`: the `n` cells before the cursor are blank, and so are those from the cursor on
unless nothing scrolled, in which case the cursor moved `n` cells. -/
def State.BlankTrail (start n : Nat) (s : State) : Prop :=
  (∀ (r : Fin 24) (c : Fin 40), 40 * r.val + c.val < s.pos → s.pos ≤ 40 * r.val + c.val + n →
    s.cell.code r c = blankCode) ∧
  (s.pos = start + n ∨ ∀ (r : Fin 24) (c : Fin 40), s.pos ≤ 40 * r.val + c.val → s.cell.code r c = blankCode)

theorem State.blankTrail_zero (s : State) : s.BlankTrail s.pos 0 := ⟨fun r c _ _ => by omega, .inl rfl⟩

theorem State.BlankTrail.putChar {start n : Nat} {s : State} (h : s.BlankTrail start n) :
    (s.putChar 0x20).BlankTrail start (n + 1) := by
  obtain ⟨hbehind, hahead⟩ := h
  have hle := s.pos_le
  by_cases hend : s.pos = 960
  case pos =>
    obtain ⟨hpos, hcell⟩ := State.putChar_blank_of_pos_eq hend
    refine ⟨fun r c hlt hge => ?_, .inr fun r c hge => ?_⟩
    · rw [hcell]
      split
      · exact hbehind _ c (by dsimp only; omega) (by dsimp only; omega)
      · rfl
    · rw [hcell, dif_neg (by omega)]
  case neg =>
    obtain ⟨hpos, hcell⟩ := State.putChar_blank_of_pos_lt (s := s) (by omega)
    refine ⟨fun r c hlt hge => ?_, hahead.imp (fun hstart => by omega) fun hblank r c hge => ?_⟩
    · rw [hcell]
      split
      · rfl
      · exact hbehind r c (by omega) (by omega)
    · rw [hcell, if_neg (by omega)]
      exact hblank r c (by omega)

theorem State.putChars_concat (s : State) (bs : List Byte) (b : Byte) :
    s.putChars (bs ++ [b]) = (s.putChars bs).putChar b := List.foldl_concat State.putChar s b bs

theorem State.blankTrail_putChars (s : State) (n : Nat) :
    (s.putChars (List.replicate n 0x20)).BlankTrail s.pos n := by
  induction n with
  | zero => exact s.blankTrail_zero
  | succ n ih =>
    rw [List.replicate_succ', State.putChars_concat]
    exact ih.putChar

/-- A trail as long as the grid covers it: with no scroll the cursor started at the first cell and stands past the last. -/
theorem State.BlankTrail.cell_eq_blank {start : Nat} {s : State} (h : s.BlankTrail start 960) :
    s.cell = Grid.blank := by
  obtain ⟨hbehind, hahead⟩ := h
  have hle := s.pos_le
  refine Grid.ext_code fun r c => ?_
  rw [Grid.code_blank]
  by_cases hc : 40 * r.val + c.val < s.pos
  · exact hbehind r c hc (by omega)
  · obtain hpos | hblank := hahead
    · omega
    · exact hblank r c (by omega)

theorem execAll_append {is js : List Instr} {s t : State} (h : execAll is s = .next t) :
    execAll (is ++ js) s = execAll js t := by
  induction is generalizing s with
  | nil =>
    cases h
    rfl
  | cons i is ih =>
    obtain ⟨u, hu, hrest⟩ := execAll_cons_next h
    rw [List.cons_append, execAll, hu]
    exact ih hrest

/-- Settles O34: after 960 blanks the trail covers the grid, whatever it held and wherever the cursor was. -/
theorem clsIsNineHundredSixtyBlanks : Obligations.ClsIsNineHundredSixtyBlanks := by
  intro s
  have hblanks : execAll (List.replicate 960 (.putc 0x20)) s = .next (s.putChars (List.replicate 960 0x20)) := by
    rw [← execAll_putc, List.map_replicate]
  have hdis : (s.putChars (List.replicate 960 0x20)).dis = false := by
    rw [List.replicate_succ', State.putChars_concat, State.putChar_dis]
  have hhome := State.setCursor_home_eq_clearScreen (s.putChars_withTerminal _)
    (s.blankTrail_putChars 960).cell_eq_blank hdis
  rw [execAll_append hblanks]
  exact congrArg Host.Outcome.next hhome

end Sys2Proof.Machine
end

section
/-! SUPPORT. The reset operation and power-on (70_reset_and_hazards.md). -/

namespace Sys2Proof.Machine

theorem exec_reset (s : State) : exec .reset s = .next s.resetAll := rfl

/-- `TBYTE.ETX` is the reset operation, whatever the connection (44_telnet.md R192). -/
theorem exec_tbyteEtx (c : Session) (s : State) : exec (.tbyteEtx c) s = exec .reset s := rfl

/-- Power-on runs the reset operation (decision D21). -/
theorem exec_poweron (s : State) : exec .poweron s = exec .reset s.quiesce := rfl

/-- Settles O44: the state is that of `RESET`, which keeps the mailbox. -/
theorem etxResult : Obligations.EtxResult :=
  fun c s => ⟨s.resetAll, exec_tbyteEtx c s, exec_reset s, s.resetAll_kbd, s.resetAll_kbdcr, Memory.read_filled, rfl, rfl,
    Grid.code_blank⟩

/-- Settles O47: RAM is the fill, the grid blank, and every other element as in the record. -/
theorem resetResult : Obligations.ResetResult :=
  fun s => ⟨s.resetAll, exec_reset s, rfl, Memory.read_filled, Grid.code_blank, rfl, rfl, s.resetAll_dis, s.resetAll_out⟩

/-- Settles O48: `RESET` from the state with the registers at their power-on values. -/
theorem poweronResult : Obligations.PoweronResult := by
  intro s
  refine ⟨s.quiesce.resetAll, exec_poweron s, rfl, rfl, rfl, rfl, rfl, rfl, rfl, rfl, rfl, Memory.read_filled,
    Grid.code_blank, ?_⟩
  exact ⟨rfl, rfl, rfl, rfl, rfl, rfl⟩

/-- Settles O49: the fill and the blank grid by their laws, the rest as written in the record. -/
theorem resetStateValues : Obligations.ResetStateValues :=
  ⟨Memory.read_filled, rfl, rfl, rfl, rfl, Grid.code_blank, rfl, rfl, rfl, rfl, rfl, rfl⟩

end Sys2Proof.Machine
end

section
/-! SUPPORT. The loader (43_tftp.md): which datagrams the two opcodes are, the translated load pointer, and a data packet
that fits. -/

namespace Sys2Proof.Machine

/-! ## The opcodes byte by byte -/

theorem bigEndian_inj {o1 o0 p1 p0 : Byte} : bigEndian o1 o0 = bigEndian p1 p0 ↔ o1 = p1 ∧ o0 = p0 := by
  refine ⟨fun h => ?_, fun ⟨h1, h0⟩ => h1 ▸ h0 ▸ rfl⟩
  have hbytes := congrArg opBytes h
  rw [opBytes_bigEndian, opBytes_bigEndian] at hbytes
  simpa using hbytes

theorem bigEndian_eq_opWrq_iff {o1 o0 : Byte} : bigEndian o1 o0 = opWrq ↔ o1 = 0x00 ∧ o0 = 0x02 :=
  bigEndian_inj (p1 := 0x00) (p0 := 0x02)

theorem bigEndian_eq_opData_iff {o1 o0 : Byte} : bigEndian o1 o0 = opData ↔ o1 = 0x00 ∧ o0 = 0x03 :=
  bigEndian_inj (p1 := 0x00) (p0 := 0x03)

/-! ## Ignored datagrams -/

theorem exec_tftpShort (c : Session) (q : List Byte) (s : State) : exec (.tftpShort c q) s = .next s := rfl

theorem exec_tftpOther (c : Session) (op : BitVec 16) (body : List Byte) (s : State) :
    exec (.tftpOther c op body) s = .next s := rfl

/-- Settles O36: such a datagram decodes to one of the two operations, which leave the state. -/
theorem ignoredDatagramResult : Obligations.IgnoredDatagramResult := by
  intro s c
  refine ⟨fun q => ⟨exec_tftpShort c q s, fun hshort => ?short⟩, fun op body => exec_tftpOther c op body s,
    fun o1 o0 b2 b3 rest hwrq hdata => ?other⟩
  case short => rw [decode, decodeUdp_short c hshort, exec_tftpShort]
  case other =>
    rw [decode, decodeUdp_other c b2 b3 rest (mt bigEndian_eq_opWrq_iff.mp hwrq) (mt bigEndian_eq_opData_iff.mp hdata),
      exec_tftpOther]

/-! ## The write-request -/

theorem exec_tftpWrq (c : Session) (body : List Byte) (s : State) :
    exec (.tftpWrq c body) s = .next (s.setTcur (loadTarget s.params s.loadPointer)) := rfl

theorem State.loadPointer_toNat (s : State) :
    s.loadPointer.toNat = (s.ram.read 0x26).toNat + 256 * (s.ram.read 0x27).toNat := littleEndian_toNat _ _

theorem loadTarget_toNat (p : Params) (t : BitVec 16) :
    (loadTarget p t).toNat =
      if p.aliasBase ≤ t.toNat ∧ t.toNat < p.aliasBase + 0x1000 then t.toNat - p.aliasBase + p.aliasTarget
      else t.toNat := by
  have := p.targetInRam
  unfold loadTarget
  split
  · rw [BitVec.toNat_ofNat, Nat.mod_eq_of_lt (by omega)]
  · rfl

/-- Settles O37: the cursor is the load pointer, translated if it lies in the window. -/
theorem writeRequestResult : Obligations.WriteRequestResult := by
  intro c body s
  refine ⟨_, exec_tftpWrq c body s, rfl, ?_⟩
  rintro ptr hptr
  rw [← State.loadPointer_toNat] at hptr
  subst hptr
  rw [State.setTcur_tcur, loadTarget_toNat]
  exact ⟨fun h => if_pos h, fun h => if_neg h⟩

/-! ## The data packet -/

theorem State.pastRam_iff {s : State} {payload : List Byte} :
    s.pastRam payload = true ↔ 0 < payload.length ∧ 0x5000 < s.tcur.toNat + payload.length := by
  simp [State.pastRam]

/-- The payload is empty or ends inside RAM. -/
def State.Fits (s : State) (payload : List Byte) : Prop :=
  payload.length = 0 ∨ s.tcur.toNat + payload.length ≤ 0x5000

theorem State.Fits.not_pastRam {s : State} {payload : List Byte} (h : s.Fits payload) : ¬ s.pastRam payload = true := by
  rw [State.pastRam_iff]
  unfold State.Fits at h
  omega

theorem exec_tftpData_of_fits (c : Session) (hi lo : Byte) {payload : List Byte} {s : State} (h : s.Fits payload) :
    exec (.tftpData c hi lo payload) s = .next ((s.storePayload payload).emit (.udp c (ackBytes hi lo))) :=
  if_neg h.not_pastRam

theorem exec_tftpData_of_pastRam (c : Session) (hi lo : Byte) {payload : List Byte} {s : State}
    (h : s.pastRam payload = true) : exec (.tftpData c hi lo payload) s = .fault .tftpRange := if_pos h

theorem State.Fits.storePayload_tcur_toNat {s : State} {payload : List Byte} (h : s.Fits payload) :
    (s.storePayload payload).tcur.toNat = s.tcur.toNat + payload.length := by
  have := s.tcur.isLt
  unfold State.Fits at h
  rw [State.storePayload_tcur, BitVec.toNat_ofNat, Nat.mod_eq_of_lt (by omega)]

/-- Settles O38: the stores of consecutive bytes, the cursor without a carry, and the acknowledgment. -/
theorem dataPacketResult : Obligations.DataPacketResult := by
  intro c hi lo payload s hfits
  exact ⟨_, exec_tftpData_of_fits c hi lo hfits, rfl, fun j => s.ram.read_store s.tcur.toNat j payload,
    State.Fits.storePayload_tcur_toNat hfits, rfl⟩

/-- Settles O39: the test of R175 is the two hypotheses. -/
theorem dataPastRamStops : Obligations.DataPastRamStops :=
  fun c hi lo _ _ hlen hpast => exec_tftpData_of_pastRam c hi lo (State.pastRam_iff.mpr ⟨hlen, hpast⟩)

/-! ## A load -/

theorem step_wrq {s : State} {c : Session} {b2 b3 : Byte} {body : List Byte} {rest : List Stimulus}
    (h : s.inbox = .udp c (0x00 :: 0x02 :: b2 :: b3 :: body) :: rest) :
    step s = .next ((s.withEnv rest s.cpu).setTcur (loadTarget s.params s.loadPointer)) := by
  rw [step_of_inbox h, decode, decodeUdp_wrq c b2 b3 body (bigEndian_eq_opWrq_iff.mpr ⟨rfl, rfl⟩)]
  rfl

theorem step_of_inbox_data {s : State} {c : Session} {hi lo : Byte} {payload : List Byte} {rest : List Stimulus}
    (h : s.inbox = .udp c (0x00 :: 0x03 :: hi :: lo :: payload) :: rest) :
    step s = exec (.tftpData c hi lo payload) (s.withEnv rest s.cpu) := by
  rw [step_of_inbox h, decode, decodeUdp_data c hi lo payload (bigEndian_eq_opData_iff.mpr ⟨rfl, rfl⟩)]

/-- Settles O40: the write-request sets the cursor to `dest`, where the data packet then fits. -/
theorem loadLandsAtPointer : Obligations.LoadLandsAtPointer := by
  intro s c c' b2 b3 hi lo body payload rest ptr dest hptr hdest hfits h
  rw [← State.loadPointer_toNat] at hptr
  rw [hptr, ← loadTarget_toNat] at hdest
  subst hdest
  let u : State := (s.withEnv rest s.cpu).setTcur (loadTarget s.params s.loadPointer)
  have hu : u.Fits payload := .inr hfits
  have hrun : Host.Core.run core 2 s = .next ((u.storePayload payload).emit (.udp c' (ackBytes hi lo))) :=
    (core_run_succ (step_wrq h)).trans
      (core_run_succ ((step_of_inbox_data rfl).trans (exec_tftpData_of_fits c' hi lo (s := u) hu)))
  exact ⟨_, hrun, fun j => u.ram.read_store u.tcur.toNat j payload, hu.storePayload_tcur_toNat, rfl, rfl⟩

end Sys2Proof.Machine
end

section
/-! SUPPORT. The tick (45_scheduler.md R210): a plan up to the end of its batch is a list of bus transactions. -/

namespace Sys2Proof.Machine

theorem exec_tick (s : State) : exec .tick s = .next (runPlan s.cpu s) := rfl

/-- Bus transactions performed one after another. -/
def busTxns (ts : List BusTxn) (s : State) : State := ts.foldl (fun u t => busTxn t u) s

@[simp] theorem busTxns_nil (s : State) : busTxns [] s = s := rfl

@[simp] theorem busTxns_cons (t : BusTxn) (ts : List BusTxn) (s : State) :
    busTxns (t :: ts) s = busTxns ts (busTxn t s) := rfl

/-- A run that takes waiting transactions, whatever waits after them. -/
theorem core_run_busTxns (ts : List BusTxn) (s : State) (rest : List Stimulus) (c : CpuPlan) :
    Host.Core.run core ts.length (s.withEnv (ts.map .bus ++ rest) c) = .next ((busTxns ts s).withEnv rest c) := by
  induction ts generalizing s with
  | nil => rfl
  | cons t ts ih => exact (core_run_succ (step_bus t s _ c)).trans (ih (busTxn t s))

/-- What a tick does is a list of transactions and the plan it leaves. -/
theorem runPlan_eq_busTxns (p : CpuPlan) (s : State) : ∃ ts q, runPlan p s = (busTxns ts s).setPlan q := by
  induction p generalizing s with
  | halt => exact ⟨[], .halt, rfl⟩
  | endTick next => exact ⟨[], next, rfl⟩
  | txn t next ih =>
    obtain ⟨ts, q, h⟩ := ih (busTxn t s)
    exact ⟨t :: ts, q, h⟩
  | ifByte b yes no ihYes ihNo =>
    unfold runPlan
    split
    · exact ihYes s
    · exact ihNo s

/-- A plan without a branch does its own transactions. -/
theorem runPlan_foldr_txn (ts : List BusTxn) (rest : CpuPlan) (s : State) :
    runPlan (ts.foldr CpuPlan.txn (.endTick rest)) s = (busTxns ts s).setPlan rest := by
  induction ts generalizing s with
  | nil => rfl
  | cons t ts ih => exact ih (busTxn t s)

theorem busTxn_inbox (t : BusTxn) (s : State) : (busTxn t s).inbox = s.inbox := by
  obtain ⟨-, -, -, -, -, -, hinbox, -⟩ := busTxn_frame t s
  exact hinbox

theorem busTxns_inbox (ts : List BusTxn) (s : State) : (busTxns ts s).inbox = s.inbox := by
  induction ts generalizing s with
  | nil => rfl
  | cons t ts ih => exact (ih (busTxn t s)).trans (busTxn_inbox t s)

/-- The transactions put ahead of what waits leave the state of the tick, but for the plan. -/
theorem core_run_ahead_of_inbox (ts : List BusTxn) (s : State) (c : CpuPlan) :
    Host.Core.run core ts.length (s.withEnv (ts.map .bus ++ s.inbox) c) = .next ((busTxns ts s).setPlan c) := by
  rw [core_run_busTxns, ← busTxns_inbox ts s]
  rfl

/-- Settles O45: the batch as a list, and its run ahead of what waits. -/
theorem tickRunsTransactions : Obligations.TickRunsTransactions := by
  intro s
  refine ⟨?some, fun ts rest hcpu => ?given⟩
  case some =>
    obtain ⟨ts, q, h⟩ := runPlan_eq_busTxns s.cpu s
    exact ⟨ts, (busTxns ts s).setPlan q, by rw [exec_tick, h], busTxns_inbox ts s, core_run_ahead_of_inbox ts s s.cpu⟩
  case given =>
    exact ⟨(busTxns ts s).setPlan rest, by rw [exec_tick, hcpu, runPlan_foldr_txn], busTxns_inbox ts s, rfl,
      core_run_ahead_of_inbox ts s rest⟩

/-- A tick of a CPU given a plan runs that plan, whatever the plan was before. -/
theorem exec_tick_setPlan (s : State) (p : CpuPlan) : exec .tick (s.setPlan p) = .next (runPlan p s) :=
  congrArg Host.Outcome.next (runPlan_withEnv p s p)

theorem runPlan_ifByte (b : Byte) (yes no : CpuPlan) (s : State) :
    runPlan (.ifByte b yes no) s = runPlan (if s.replies.getLast? = some b then yes else no) s := by
  rw [runPlan, State.lastByte]
  split <;> rfl

/-- Settles O46, form by form of the plan; a read followed by a branch is both in turn. -/
theorem tickFollowsPlan : Obligations.TickFollowsPlan := by
  intro s
  refine ⟨fun hcpu => ?halt, fun next hcpu => ?endTick, fun x next hcpu => ?txn, fun b yes no hcpu => ?ifByte,
    fun u a b v yes no hcpu hexec hreply => ?readBranch⟩
  case halt =>
    rw [exec_tick, hcpu, runPlan, ← hcpu]
    rfl
  case endTick => rw [exec_tick, hcpu, runPlan, State.setPlan]
  case txn =>
    refine ⟨busTxn x s, exec_decodeBus x s, ?_⟩
    rw [exec_tick, hcpu, runPlan]
    exact (exec_tick_setPlan (busTxn x s) next).symm
  case ifByte =>
    rw [exec_tick, hcpu, runPlan_ifByte]
    exact (exec_tick_setPlan s _).symm
  case readBranch =>
    obtain rfl : busTxn (.rd a) s = u := Host.Outcome.next.inj ((exec_decodeBus (.rd a) s).symm.trans hexec)
    have hlast : (busTxn (.rd a) s).replies.getLast? = some v := by rw [hreply, List.getLast?_concat]
    rw [exec_tick, hcpu, runPlan, runPlan_ifByte, hlast]
    simp only [Option.some.injEq]
    exact (exec_tick_setPlan (busTxn (.rd a) s) _).symm

end Sys2Proof.Machine
end

section
/-! SUPPORT. The whole machine: where it stops (60_exceptions.md R220, R222), the parameters no rule reads (00_scope.md R3), and
who writes what (10_state.md section 1, 60_exceptions.md R228). -/

namespace Sys2Proof.Machine

/-! ## Stops -/

/-- Settles O54: every arm but that of `TFTP.DATA` answers a next state as it stands. -/
theorem onlyDataPacketStops : Obligations.OnlyDataPacketStops := by
  intro i s
  cases i with
  | tftpData c hi lo payload =>
    by_cases hpast : s.pastRam payload = true
    · obtain ⟨hlen, hend⟩ := State.pastRam_iff.mp hpast
      exact .inr ⟨exec_tftpData_of_pastRam c hi lo hpast, c, hi, lo, payload, rfl, hlen, hend⟩
    · exact .inl ⟨_, if_neg hpast⟩
  | _ => exact .inl ⟨_, rfl⟩

/-- The stimulus that decodes to a data packet is its datagram. -/
theorem eq_udp_of_decode_eq_tftpData {p : Params} {st : Stimulus} {c : Session} {hi lo : Byte} {payload : List Byte}
    (h : decode p st = .tftpData c hi lo payload) : st = .udp c (0x00 :: 0x03 :: hi :: lo :: payload) := by
  have hpresented := (encodeOfDecode p (.stimulus st)).2
  rw [decodePresentation, h] at hpresented
  exact (Presentation.stimulus.inj hpresented).symm

/-- Settles O55: a step that does not complete executes a data packet that O54 names, and so took its datagram. -/
theorem safeStepIff : Obligations.SafeStepIff := by
  intro s
  constructor
  case mp =>
    rintro ⟨t, ht⟩ ⟨c, hi, lo, payload, rest, hinbox, hlen, hend⟩
    have hstop : step s = .fault .tftpRange :=
      (step_of_inbox_data hinbox).trans (exec_tftpData_of_pastRam c hi lo (State.pastRam_iff.mpr ⟨hlen, hend⟩))
    rw [hstop] at ht
    cases ht
  case mpr =>
    intro hno
    cases hinbox : s.inbox with
    | nil => exact ⟨s, step_of_inbox_nil hinbox⟩
    | cons st rest =>
      obtain ⟨t, ht⟩ | ⟨-, c, hi, lo, payload, hdata, hlen, hend⟩ :=
        onlyDataPacketStops (decode s.params st) (s.withEnv rest s.cpu)
      · exact ⟨t, (step_of_inbox hinbox).trans ht⟩
      · rw [eq_udp_of_decode_eq_tftpData hdata] at hinbox
        exact absurd ⟨c, hi, lo, payload, rest, hinbox, hlen, hend⟩ hno

/-! ## The parameters that no rule reads -/

section
variable (m n k l : Nat)

theorem decode_withUnread (p : Params) (st : Stimulus) : decode (p.withUnread m n k l) st = decode p st := by
  cases st with
  | bus t => cases t <;> rfl
  | _ => rfl

theorem State.setCursor_withUnread (s : State) (x y : Byte) :
    (s.withUnread m n k l).setCursor x y = (s.setCursor x y).withUnread m n k l := by
  unfold State.setCursor
  split <;> rfl

theorem rdDsp_withUnread (s : State) : rdDsp (s.withUnread m n k l) = (rdDsp s).withUnread m n k l := by
  cases hmode : s.params.dspReadback with
  | any => rw [rdDsp_any hmode, rdDsp_any (s := s.withUnread m n k l) hmode]; rfl
  | stored => rw [rdDsp_stored hmode, rdDsp_stored (s := s.withUnread m n k l) hmode]; rfl
  | zero => rw [rdDsp_zero hmode, rdDsp_zero (s := s.withUnread m n k l) hmode]; rfl

/-- An operation that completes does so under other values of the four. An arm that is not listed reads no parameter or one
of the others. -/
theorem exec_withUnread_next {i : Instr} {s t : State} (h : exec i s = .next t) :
    exec i (s.withUnread m n k l) = .next (t.withUnread m n k l) := by
  cases i with
  | tftpData c hi lo payload =>
    obtain ⟨hfits, rfl⟩ := execTftpData_next h
    have hfits' : ¬ (s.withUnread m n k l).pastRam payload = true := Bool.eq_false_iff.mp hfits
    exact if_neg hfits'
  | rdDsp => cases h; exact congrArg Host.Outcome.next (rdDsp_withUnread m n k l s)
  | wrDsp v => cases h; exact congrArg Host.Outcome.next (State.putChar_withUnread (s.setDsp v) _ m n k l)
  | putc b => cases h; exact congrArg Host.Outcome.next (s.putChar_withUnread b m n k l)
  | setcur x y => cases h; exact congrArg Host.Outcome.next (s.setCursor_withUnread m n k l x y)
  | tick => cases h; exact congrArg Host.Outcome.next (runPlan_withUnread s.cpu s m n k l)
  | _ => cases h; rfl

/-- An operation that stops is a data packet, whose test reads no parameter. -/
theorem exec_withUnread_fault {i : Instr} {s : State} {f : Fault} (h : exec i s = .fault f) :
    exec i (s.withUnread m n k l) = .fault f := by
  obtain ⟨t, ht⟩ | ⟨hstop, c, hi, lo, payload, rfl, hlen, hend⟩ := onlyDataPacketStops i s
  · rw [ht] at h
    cases h
  · rw [← h, hstop]
    exact exec_tftpData_of_pastRam c hi lo (State.pastRam_iff.mpr ⟨hlen, hend⟩)

end

/-- Settles O53: decoding, the operations, and so a step, idle or on a waiting stimulus. -/
theorem unreadParametersChangeNothing : Obligations.UnreadParametersChangeNothing := by
  intro s m n k l
  have stepUnread {st : Stimulus} {rest : List Stimulus} (hinbox : s.inbox = st :: rest) :
      step (s.withUnread m n k l) = exec (decode s.params st) ((s.withEnv rest s.cpu).withUnread m n k l) := by
    rw [← decode_withUnread m n k l]
    exact step_of_inbox (s := s.withUnread m n k l) hinbox
  refine ⟨decode_withUnread m n k l s.params, fun i => ⟨fun t => exec_withUnread_next m n k l, fun f =>
    exec_withUnread_fault m n k l⟩, fun t h => ?next, fun f h => ?fault⟩
  case next =>
    cases hinbox : s.inbox with
    | nil =>
      rw [step_of_inbox_nil hinbox] at h
      cases h
      exact step_of_inbox_nil (s := s.withUnread m n k l) hinbox
    | cons st rest =>
      rw [step_of_inbox hinbox] at h
      exact (stepUnread hinbox).trans (exec_withUnread_next m n k l h)
  case fault =>
    cases hinbox : s.inbox with
    | nil =>
      rw [step_of_inbox_nil hinbox] at h
      cases h
    | cons st rest =>
      rw [step_of_inbox hinbox] at h
      exact (stepUnread hinbox).trans (exec_withUnread_fault m n k l h)

/-! ## Who writes what -/

/-- A tick keeps what no transaction writes (R228). -/
theorem runPlan_frame (p : CpuPlan) (s : State) :
    (runPlan p s).kbd = s.kbd ∧ (runPlan p s).dspcr = s.dspcr ∧ (runPlan p s).vis = s.vis ∧
      (runPlan p s).tcur = s.tcur ∧ (runPlan p s).out = s.out := by
  refine runPlan_induction (P := fun u => u.kbd = s.kbd ∧ u.dspcr = s.dspcr ∧ u.vis = s.vis ∧ u.tcur = s.tcur ∧
    u.out = s.out) p ⟨rfl, rfl, rfl, rfl, rfl⟩ (fun t u hu => ?_) (fun _ _ hu => hu)
  obtain ⟨-, hkbd, hdspcr, hvis, htcur, hout, -, -⟩ := busTxn_frame t u
  rw [hkbd, hdspcr, hvis, htcur, hout]
  exact hu

/-- Settles O56, operation by operation: an element that the operation's update does not write is the same, and one that it
writes names the operation. -/
theorem onlyNamedOperationsWrite : Obligations.OnlyNamedOperationsWrite := by
  intro i s t h
  cases i with
  | rdDsp =>
    cases h
    obtain ⟨b, hb⟩ | hdraw := rdDsp_cases s
    · simp [hb]
    · simp [hdraw]
  | tftpData c hi lo payload =>
    obtain ⟨-, rfl⟩ := execTftpData_next h
    simp [Instr.mnemonic]
  | tick =>
    cases h
    obtain ⟨hkbd, hdspcr, hvis, htcur, hout⟩ := runPlan_frame s.cpu s
    simp [Instr.mnemonic, hkbd, hdspcr, hvis, htcur, hout]
  | _ =>
    cases h
    simp [Instr.mnemonic, rdRam, wrRam, rdAlias, wrAlias, rdKbd, rdKbdcr, rdDspcr, rdIox, wrDsp, wrIox, rdRom, wrRom, rdNone,
      wrNone]

end Sys2Proof.Machine
end

section
/-! SUPPORT. Ownership by agent (60_exceptions.md R228), and what the CPU can learn. -/

namespace Sys2Proof.Machine

/-! ## The agents -/

/-- What the CPU's operations leave alone. -/
theorem exec_cpu_frame {i : Instr} {s t : State} (hi : i.format = .bus ∨ i = .tick) (h : exec i s = .next t) :
    t.kbd = s.kbd ∧ t.dspcr = s.dspcr ∧ t.vis = s.vis ∧ t.tcur = s.tcur ∧ t.out = s.out := by
  cases i with
  | tick => cases h; exact runPlan_frame s.cpu s
  | rdDsp =>
    cases h
    obtain ⟨b, hb⟩ | hdraw := rdDsp_cases s
    · rw [hb]; exact ⟨rfl, rfl, rfl, rfl, rfl⟩
    · rw [hdraw]; exact ⟨rfl, rfl, rfl, rfl, rfl⟩
  | wrDsp v => cases h; simp [wrDsp]
  | rdRam _ | wrRam _ _ | rdAlias _ | wrAlias _ _ | rdKbd | rdKbdcr | rdDspcr | rdIox _ | wrIox _ _ | rdRom _ | wrRom _ _
  | rdNone _ | wrNone _ _ => cases h; exact ⟨rfl, rfl, rfl, rfl, rfl⟩
  | _ => simp [Instr.format] at hi

/-- What the loader's operations leave alone. -/
theorem exec_udp_frame {i : Instr} {s t : State} (hi : i.format = .udp) (h : exec i s = .next t) :
    { t with ram := s.ram, tcur := s.tcur, out := s.out } = s := by
  cases i with
  | tftpData c hi lo payload =>
    obtain ⟨-, rfl⟩ := execTftpData_next h
    rfl
  | tftpShort _ _ | tftpWrq _ _ | tftpOther _ _ _ => cases h; rfl
  | _ => simp [Instr.format] at hi

/-- What the Telnet agent's operations leave alone, and what its reset byte leaves. -/
theorem exec_tcp_frame {i : Instr} {s t : State} (hi : i.format = .tcpb ∨ i.format = .tcpc) (h : exec i s = .next t) :
    t.dsp = s.dsp ∧ t.dspcr = s.dspcr ∧ t.vis = s.vis ∧ t.tcur = s.tcur ∧ t.replies = s.replies ∧
      (t.ram = s.ram ∨ (i.mnemonic = .tbyteEtx ∧ ∀ j : Nat, t.ram.read j = 0xFF)) ∧
      (t.cell = s.cell ∨ (i.mnemonic = .tbyteEtx ∧ ∀ r c, t.cell.code r c = 0x20)) := by
  cases i with
  | tbyteEtx _ =>
    cases h
    exact ⟨rfl, rfl, rfl, rfl, rfl, .inr ⟨rfl, Memory.read_filled⟩, .inr ⟨rfl, Grid.code_blank⟩⟩
  | connect _ | tbyteLower _ _ | tbyteLf _ | tbyteDel _ | tbytePass _ _ =>
    cases h
    exact ⟨rfl, rfl, rfl, rfl, rfl, .inl rfl, .inl rfl⟩
  | _ => simp [Instr.format] at hi

/-- Settles O57, agent by agent. -/
theorem agentsOwnTheirState : Obligations.AgentsOwnTheirState := by
  intro i s t h
  refine ⟨fun hi => exec_cpu_frame hi h, fun hi => exec_udp_frame hi h, fun hi => exec_tcp_frame hi h, ?blink⟩
  case blink =>
    rintro rfl
    cases h
    rfl

/-! ## What the CPU can learn -/

/-- The view, field by field. -/
theorem cpuView_eq_iff {s s' : State} :
    s.cpuView = s'.cpuView ↔ s.params = s'.params ∧ s.ram = s'.ram ∧ s.kbd = s'.kbd ∧ s.kbdcr = s'.kbdcr ∧
      s.dsp = s'.dsp ∧ s.dspcr = s'.dspcr ∧ s.draws = s'.draws ∧ s.replies = s'.replies := by
  simp only [State.cpuView, Prod.mk.injEq]

section
variable {s s' : State} (h : s.cpuView = s'.cpuView)
include h

theorem cpuView_reply {b b' : Byte} (hb : b = b') : (s.reply b).cpuView = (s'.reply b').cpuView := by
  rw [cpuView_eq_iff] at h
  simp [cpuView_eq_iff, h, hb]

theorem cpuView_replyDraw : s.replyDraw.cpuView = s'.replyDraw.cpuView := by
  rw [cpuView_eq_iff] at h
  simp [cpuView_eq_iff, h]

theorem cpuView_takeKey : s.takeKey.cpuView = s'.takeKey.cpuView := by
  rw [cpuView_eq_iff] at h
  simp [cpuView_eq_iff, h]

theorem cpuView_writeRam (i : RamIndex) (v : Byte) : (s.writeRam i v).cpuView = (s'.writeRam i v).cpuView := by
  rw [cpuView_eq_iff] at h
  simp [cpuView_eq_iff, h]

/-- `PUTC` writes the terminal, which is outside the view. -/
theorem cpuView_wrDsp (v : Byte) : (wrDsp v s).cpuView = (wrDsp v s').cpuView := by
  rw [cpuView_eq_iff] at h
  simp [cpuView_eq_iff, wrDsp, h]

theorem cpuView_rdDsp : (rdDsp s).cpuView = (rdDsp s').cpuView := by
  obtain ⟨hparams, -, -, -, hdsp, -⟩ := cpuView_eq_iff.mp h
  cases hmode : s'.params.dspReadback with
  | any => rw [rdDsp_any hmode, rdDsp_any (hparams ▸ hmode)]; exact cpuView_replyDraw h
  | stored => rw [rdDsp_stored hmode, rdDsp_stored (hparams ▸ hmode)]; exact cpuView_reply h hdsp
  | zero => rw [rdDsp_zero hmode, rdDsp_zero (hparams ▸ hmode)]; exact cpuView_reply h rfl

theorem cpuView_busRead (a : Addr) : (busRead a s).cpuView = (busRead a s').cpuView := by
  obtain ⟨hparams, hram, hkbd, hkbdcr, -, hdspcr, -, -⟩ := cpuView_eq_iff.mp h
  have hcell (i : RamIndex) : s.readRam i = s'.readRam i := by rw [State.readRam, State.readRam, hram]
  rw [busRead, busRead, hparams]
  cases region s'.params a with
  | ram i => exact cpuView_reply h (hcell i)
  | aliasWindow off => exact cpuView_reply h (by rw [hparams, hcell])
  | io sub =>
    dsimp only
    split
    · exact cpuView_reply (cpuView_takeKey h) hkbd
    split
    · exact cpuView_reply h hkbdcr
    split
    · exact cpuView_rdDsp h
    split
    · exact cpuView_reply h hdspcr
    · exact cpuView_replyDraw h
  | rom i => exact cpuView_reply h (by rw [hparams])
  | unmapped => exact cpuView_reply h rfl

theorem cpuView_busWrite (a : Addr) (v : Byte) : (busWrite a v s).cpuView = (busWrite a v s').cpuView := by
  obtain ⟨hparams, -⟩ := cpuView_eq_iff.mp h
  rw [busWrite, busWrite, hparams]
  cases region s'.params a with
  | ram i => exact cpuView_writeRam h i v
  | aliasWindow off =>
    show (s.writeRam (aliasIndex s.params off) v).cpuView = (s'.writeRam (aliasIndex s'.params off) v).cpuView
    rw [hparams]
    exact cpuView_writeRam h _ v
  | io sub =>
    dsimp only
    split
    · exact cpuView_wrDsp h v
    · exact h
  | rom i => exact h
  | unmapped => exact h

theorem cpuView_busTxn (t : BusTxn) : (busTxn t s).cpuView = (busTxn t s').cpuView := by
  cases t with
  | rd a => exact cpuView_busRead h a
  | wr a v => exact cpuView_busWrite h a v

end

/-- A tick takes the same branches from two states of the same view, since it branches on the returned bytes alone. -/
theorem runPlan_cpuView (p : CpuPlan) {s s' : State} (h : s.cpuView = s'.cpuView) :
    (runPlan p s).cpuView = (runPlan p s').cpuView ∧ (runPlan p s).cpu = (runPlan p s').cpu := by
  induction p generalizing s s' with
  | halt => exact ⟨h, rfl⟩
  | endTick next => exact ⟨h, rfl⟩
  | txn t next ih => exact ih (cpuView_busTxn h t)
  | ifByte b yes no ihYes ihNo =>
    obtain ⟨-, -, -, -, -, -, -, hreplies⟩ := cpuView_eq_iff.mp h
    rw [runPlan_ifByte, runPlan_ifByte, hreplies]
    split
    · exact ihYes h
    · exact ihNo h

/-- Settles O58: a transaction and a tick are functions of the view, as far as the view sees. -/
theorem cpuCannotReadTerminalOrCursor : Obligations.CpuCannotReadTerminalOrCursor := by
  intro s s' h
  refine ⟨fun x => ?txn, fun hcpu => ?tick⟩
  case txn => exact ⟨_, _, exec_decodeBus x s, exec_decodeBus x s', cpuView_busTxn h x⟩
  case tick =>
    obtain ⟨hview, hplan⟩ := runPlan_cpuView s'.cpu h
    exact ⟨_, _, exec_tick s, exec_tick s', by rw [hcpu]; exact hview, by rw [hcpu]; exact hplan⟩

end Sys2Proof.Machine
end
